-- ==== Sys2Proof/Word.lean ====
section
/-! DEFINITION. The words of the four ports and of the tables: bytes, frame numbers, marker counts, station addresses
(chapter 00 "Documentation notes", chapter 12). -/

namespace Sys2Proof

/-- One byte on a port (chapter 12). -/
abbrev Byte := BitVec 8

/-- A two-byte field of the wire, most significant byte first; a frame number is one (00, "Counts and frame numbers"). -/
abbrev Half := BitVec 16

/-- A 16-bit frame number (00). -/
abbrev FrameNumber := BitVec 16

/-- A 32-bit marker count, wrapping (00, R14). -/
abbrev MarkerCount := BitVec 32

/-- A 48-bit station address (00). -/
abbrev Address := BitVec 48

end Sys2Proof
end

