-- ==== Sys2Proof/Syntax.lean ====
section
/-! DEFINITION. The commands of the block: one constructor of `Instr` for each row of spec/opcode_table.json, with the
fields chapter 12 gives the items and cells they stand for. -/

namespace Sys2Proof

/-- The two traffic paths of the part (00, "Where the part sits"). -/
inductive Path where
  | downstream
  | upstream
deriving DecidableEq, Repr

/-- Outcome of one expected burst (12.3). -/
inductive BurstOutcome where
  | good
  | crcBad
  | missed
deriving DecidableEq, Repr

/-- The two kinds of burst in granted airtime (12.3). -/
inductive GrantKind where
  | data
  | report
deriving DecidableEq, Repr

/-- The fields of a burst report beyond its header and burst kind (12.3). The measurement fields are signed fields of the
wire, read only when the outcome is GOOD. `tail` is what stands from offset 13 on: in a GOOD CONTENTION report its first
six bytes are the station address; all other bytes there are unread (R182). -/
structure Burst where
  frame : FrameNumber
  id : Byte
  outcome : BurstOutcome
  snr : Half
  timing : Half
  power : Byte
  tail : List Byte
deriving DecidableEq, Repr

/-- One provisioning entry of LOAD_TERMINALS (12.4). -/
structure ProvEntry where
  id : Byte
  addr : Address
  cls : Byte
  load : Half
  ceiling : Byte
  flags : Byte
deriving DecidableEq, Repr

/-- One Profile Table entry as LOAD_PROFILES carries it: flags (bit 0 enabled), T signed, C and H (12.4). -/
structure ProfileWire where
  flags : Byte
  threshold : Half
  capacity : Byte
  overhead : Byte
deriving DecidableEq, Repr

/-- One filter as LOAD_FILTERS carries it (12.4). -/
structure FilterWire where
  code : Address
  mask : Address
  enabled : Byte
deriving DecidableEq, Repr

/-- The twenty commands of 12.4 with their parameters. The operand of `sectorReset` is no field of the cell: it says
through which of the seven steps of R172, 1 to 7, the reset goes before another item is taken (log 12). -/
inductive Command where
  | setMode (requested : Byte)
  | loadTerminals (entries : List ProvEntry)
  | unload (id : Byte)
  | readTerminal (id : Byte)
  | hold (id : Byte)
  | release (id : Byte)
  | forceLoss (id : Byte)
  | cancelReentry (id : Byte)
  | loadProfiles (table : List ProfileWire)
  | loadBudget (banks : List Half)
  | loadLevelTable (thresholds : List Half) (levelHold : Byte)
  | loadFilters (acceptA acceptB reject : FilterWire)
  | loadSectorParameters (values : List Half)
  | storm (level : Byte)
  | unlistedRead
  | unlistedRelease
  | unlistedClearOverrun
  | readSector (acknowledge : Byte)
  | setNoticeMask (enables : List Byte)
  | sectorReset (through : Nat)
deriving DecidableEq, Repr

/-- What can arrive on DS-in (R1, R2, R3, R7): the four kinds of item, the header of a management cell on its own, a cell
of one known command, an item no block takes, and a cut item. -/
inductive DsItem where
  | marker (frame : FrameNumber) (tail : List Byte)
  | map (frame : FrameNumber) (count : Byte) (body : List Byte)
  | control (offered : Byte) (messages : List Byte)
  | cellHeader
  | cell (payload : List Byte)
  | command (tag : Byte) (command : Command)
  | raw (bytes : List Byte)
  | cut (bytes : List Byte)
deriving DecidableEq, Repr

/-- What can arrive on US-in (R2, R4): burst reports by kind, end-of-frame reports, items no block takes, cut items. -/
inductive UsItem where
  | burst (kind : GrantKind) (b : Burst)
  | poll (b : Burst)
  | contention (b : Burst)
  | endOfFrame (frame : FrameNumber) (tail : List Byte)
  | raw (bytes : List Byte)
  | cut (bytes : List Byte)
deriving DecidableEq, Repr

/-- The commands, in the order of spec/opcode_table.json. `runEntryOperation last` carries the RUN-entry operation on
through stage `last` (5 completes it; log 11). The hub controller's commands carry the tag of their cell. -/
inductive Instr where
  | powerOn
  | itemCut (path : Path) (bytes : List Byte)
  | unroutedItem (path : Path) (bytes : List Byte)
  | frameMarker (frame : FrameNumber) (tail : List Byte)
  | markerWatchdogExpiry
  | map (frame : FrameNumber) (count : Byte) (body : List Byte)
  | controlSection (offered : Byte) (messages : List Byte)
  | mgmtCellHeader
  | managementCell (payload : List Byte)
  | setModeConfig (tag : Byte)
  | setModeRun (tag : Byte)
  | runEntryOperation (last : Nat)
  | loadTerminals (tag : Byte) (entries : List ProvEntry)
  | provisioningEntry
  | unload (tag : Byte) (id : Byte)
  | readTerminal (tag : Byte) (id : Byte)
  | hold (tag : Byte) (id : Byte)
  | release (tag : Byte) (id : Byte)
  | forceLoss (tag : Byte) (id : Byte)
  | cancelReentry (tag : Byte) (id : Byte)
  | loadProfiles (tag : Byte) (table : List ProfileWire)
  | loadProfilesReclamp
  | loadBudget (tag : Byte) (banks : List Half)
  | loadLevelTable (tag : Byte) (thresholds : List Half) (levelHold : Byte)
  | loadFilters (tag : Byte) (acceptA acceptB reject : FilterWire)
  | loadSectorParameters (tag : Byte) (values : List Half)
  | storm (tag : Byte) (level : Byte)
  | unlistedRead (tag : Byte)
  | unlistedRelease (tag : Byte)
  | unlistedClearOverrun (tag : Byte)
  | readSector (tag : Byte) (acknowledge : Byte)
  | setNoticeMask (tag : Byte) (enables : List Byte)
  | sectorReset (tag : Byte) (through : Nat)
  | burstReport (kind : GrantKind) (b : Burst)
  | pollReport (b : Burst)
  | contentionReportListed (b : Burst)
  | contentionReportUnlisted (b : Burst)
  | endOfFrameReport (frame : FrameNumber) (tail : List Byte)
  | noticeEmission
  | usOutBoundary
  | holdOffExpiry (id : Byte)
  | probationExpiry (id : Byte)
  | confirmTimerExpiry (id : Byte)
  | stormExpiry
  | levelHoldExpiry
  | resetNFall
deriving DecidableEq, Repr

end Sys2Proof
end

