-- ==== Sys2Proof/Decode.lean ====
section
/-! DEFINITION. Reading the wire (chapter 12): items from bytes, commands from the payload of a management cell, and
after each reader the writer of the same layout. `decodeTableWord` answers `none`: spec/opcode_table.json gives no row
any bits, so no word spells a command (log 24). -/

namespace Sys2Proof

/-- The command a word spells by the table's bits. No row of the table has bits, so there is none. -/
def decodeTableWord (_nbits _w : Nat) : Option Instr := none

/-! ## Fields, most significant byte first (00, "Number conventions") -/

/-- A two-byte field from its bytes. -/
def half (hi lo : Byte) : Half := (hi ++ lo : BitVec 16)

/-- The bytes of a two-byte field. -/
def halfBytes (w : Half) : List Byte := [w.extractLsb' 8 8, w.extractLsb' 0 8]

/-- The bytes of a four-byte field. -/
def wordBytes (w : BitVec 32) : List Byte :=
  [w.extractLsb' 24 8, w.extractLsb' 16 8, w.extractLsb' 8 8, w.extractLsb' 0 8]

/-- A station address from its six bytes. -/
def address (a b c d e f : Byte) : Address := (a ++ b ++ c ++ d ++ e ++ f : BitVec 48)

/-- The bytes of a six-byte field: a station address, or a notice value (12.6). -/
def addressBytes (w : BitVec 48) : List Byte :=
  [w.extractLsb' 40 8, w.extractLsb' 32 8, w.extractLsb' 24 8, w.extractLsb' 16 8, w.extractLsb' 8 8, w.extractLsb' 0 8]

/-- The station address at the head of a list of bytes, where six bytes stand there (12.3, offset 13). -/
def addressAtHead : List Byte → Option Address
  | a :: b :: c :: d :: e :: f :: _ => some (address a b c d e f)
  | _ => none

/-- An item: its kind code, its length (header included) and its bytes after the header (12.1). -/
def itemBytes (kind : Byte) (body : List Byte) : List Byte :=
  kind :: (halfBytes (BitVec.ofNat 16 (3 + body.length)) ++ body)

/-- The length an item header declares; a length below the header's own size is taken as that size (R1). -/
def declaredLength (hi lo : Byte) : Nat := max 3 (half hi lo).toNat

/-! ## Burst reports (12.3) -/

/-- Outcome code of a burst report. -/
def outcomeOf (code : Byte) : Option BurstOutcome :=
  match code.toNat with
  | 0 => some .good
  | 1 => some .crcBad
  | 2 => some .missed
  | _ => none

/-- The code of an outcome. -/
def outcomeCode : BurstOutcome → Byte
  | .good => 0x00
  | .crcBad => 0x01
  | .missed => 0x02

/-- The burst kind code of granted airtime. -/
def grantCode : GrantKind → Byte
  | .data => 0x00
  | .report => 0x01

/-- The station address of a GOOD CONTENTION report (12.3). -/
def Burst.address (b : Burst) : Option Address := addressAtHead b.tail

/-- The bytes of a burst report after its header. -/
def burstBody (kind : Byte) (b : Burst) : List Byte :=
  halfBytes b.frame ++ b.id :: kind :: outcomeCode b.outcome ::
    (halfBytes b.snr ++ (halfBytes b.timing ++ b.power :: b.tail))

/-- Routes a burst report by its burst kind and outcome codes (R182, R183): a code outside the tables, and a GOOD
CONTENTION report with no room for its address, is no report to the part. -/
def readBurst (bytes : List Byte) (kind : Byte) : Option Burst → UsItem
  | none => .raw bytes
  | some b =>
    match kind.toNat with
    | 0 => .burst .data b
    | 1 => .burst .report b
    | 2 => .poll b
    | 3 => if b.outcome = .good ∧ b.tail.length < 6 then .raw bytes else .contention b
    | _ => .raw bytes

/-! ## Items -/

/-- Reads one downstream item taken whole (R1, R3, R9, R182). -/
def readDs (bytes : List Byte) : DsItem :=
  match bytes with
  | kind :: l1 :: l2 :: body =>
    if declaredLength l1 l2 ≠ bytes.length then .cut bytes
    else
      match kind.toNat, body with
      | 0x01, f1 :: f2 :: tail => .marker (half f1 f2) tail
      | 0x02, f1 :: f2 :: count :: entries => .map (half f1 f2) count entries
      | 0x03, offered :: messages => .control offered messages
      | 0x04, payload => .cell payload
      | _, _ => .raw bytes
  | _ => .cut bytes

/-- Reads one upstream item taken whole (R1, R4, R9, R182, R183). -/
def readUs (bytes : List Byte) : UsItem :=
  match bytes with
  | kind :: l1 :: l2 :: body =>
    if declaredLength l1 l2 ≠ bytes.length then .cut bytes
    else
      match kind.toNat, body with
      | 0x11, f1 :: f2 :: id :: burstKind :: outcome :: s1 :: s2 :: t1 :: t2 :: power :: tail =>
        readBurst bytes burstKind <| (outcomeOf outcome).map fun o =>
          { frame := half f1 f2, id := id, outcome := o, snr := half s1 s2, timing := half t1 t2,
            power := power, tail := tail }
      | 0x12, f1 :: f2 :: tail => .endOfFrame (half f1 f2) tail
      | _, _ => .raw bytes
  | _ => .cut bytes

/-! ## Commands (12.4) -/

/-- The entries of LOAD_TERMINALS, 12 bytes each. -/
def readEntries : List Byte → Option (List ProvEntry)
  | [] => some []
  | id :: a :: b :: c :: d :: e :: f :: cls :: l1 :: l2 :: ceiling :: flags :: rest =>
    (readEntries rest).map fun es =>
      { id := id, addr := address a b c d e f, cls := cls, load := half l1 l2, ceiling := ceiling, flags := flags } :: es
  | _ => none

/-- The bytes of one LOAD_TERMINALS entry. -/
def entryBytes (e : ProvEntry) : List Byte :=
  e.id :: (addressBytes e.addr ++ e.cls :: (halfBytes e.load ++ [e.ceiling, e.flags]))

/-- Two-byte parameters in order. -/
def readHalves : List Byte → Option (List Half)
  | [] => some []
  | a :: b :: rest => (readHalves rest).map (half a b :: ·)
  | _ => none

/-- The entries of LOAD_PROFILES, 5 bytes each. -/
def readProfiles : List Byte → Option (List ProfileWire)
  | [] => some []
  | flags :: t1 :: t2 :: c :: h :: rest =>
    (readProfiles rest).map ({ flags := flags, threshold := half t1 t2, capacity := c, overhead := h } :: ·)
  | _ => none

/-- The bytes of one LOAD_PROFILES entry. -/
def profileBytes (p : ProfileWire) : List Byte :=
  p.flags :: (halfBytes p.threshold ++ [p.capacity, p.overhead])

/-- One filter of LOAD_FILTERS, and the bytes after it. -/
def readFilter : List Byte → Option (FilterWire × List Byte)
  | a :: b :: c :: d :: e :: f :: g :: h :: i :: j :: k :: l :: enabled :: rest =>
    some ({ code := address a b c d e f, mask := address g h i j k l, enabled := enabled }, rest)
  | _ => none

/-- The bytes of one filter. -/
def filterBytes (f : FilterWire) : List Byte :=
  addressBytes f.code ++ (addressBytes f.mask ++ [f.enabled])

/-- What MU reads from a cell's code and parameters at checks 3 and 4 of R163. -/
inductive CommandRead where
  | unknown
  | badLength
  | command (c : Command)
deriving DecidableEq, Repr

/-- A parameter list of exactly one byte. -/
def oneByte (params : List Byte) (f : Byte → Command) : CommandRead :=
  match params with
  | [v] => .command (f v)
  | _ => .badLength

/-- A parameter list of no bytes. -/
def noByte (params : List Byte) (c : Command) : CommandRead :=
  match params with
  | [] => .command c
  | _ => .badLength

/-- LOAD_TERMINALS: the entry count, 1..8, and as many entries as it says. -/
def readLoadTerminals : List Byte → CommandRead
  | count :: rest =>
    match readEntries rest with
    | some es =>
      if 1 ≤ count.toNat ∧ count.toNat ≤ 8 ∧ es.length = count.toNat then .command (.loadTerminals es) else .badLength
    | none => .badLength
  | [] => .badLength

/-- LOAD_LEVEL_TABLE: seven thresholds and the level hold. -/
def readLoadLevelTable (params : List Byte) : CommandRead :=
  match readHalves (params.take 14), params.drop 14 with
  | some ths, [levelHold] => .command (.loadLevelTable ths levelHold)
  | _, _ => .badLength

/-- LOAD_FILTERS: three filters. -/
def readLoadFilters (params : List Byte) : CommandRead :=
  match readFilter params with
  | none => .badLength
  | some (a, rest) =>
    match readFilter rest with
    | none => .badLength
    | some (b, rest) =>
      match readFilter rest with
      | some (reject, []) => .command (.loadFilters a b reject)
      | _ => .badLength

/-- The command of a cell: its code and the bytes after the tag (R163 checks 3 and 4, 12.4). -/
def readCommand (code : Byte) (params : List Byte) : CommandRead :=
  match code.toNat with
  | 0x01 => oneByte params .setMode
  | 0x02 => readLoadTerminals params
  | 0x03 => oneByte params .unload
  | 0x04 => oneByte params .readTerminal
  | 0x05 => oneByte params .hold
  | 0x06 => oneByte params .release
  | 0x07 => oneByte params .forceLoss
  | 0x08 => oneByte params .cancelReentry
  | 0x09 =>
    match readProfiles params with
    | some t => if t.length = 8 then .command (.loadProfiles t) else .badLength
    | none => .badLength
  | 0x0A =>
    match readHalves params with
    | some b => if b.length = 8 then .command (.loadBudget b) else .badLength
    | none => .badLength
  | 0x0B => readLoadLevelTable params
  | 0x0C => readLoadFilters params
  | 0x0D =>
    match readHalves params with
    | some v => if v.length = 27 then .command (.loadSectorParameters v) else .badLength
    | none => .badLength
  | 0x0E => oneByte params .storm
  | 0x0F => noByte params .unlistedRead
  | 0x10 => noByte params .unlistedRelease
  | 0x11 => noByte params .unlistedClearOverrun
  | 0x12 => oneByte params .readSector
  | 0x13 => if params.length = 18 then .command (.setNoticeMask params) else .badLength
  | 0x14 => noByte params (.sectorReset 7)
  | _ => .unknown

/-! ## The writers of the same layouts -/

/-- The command code of 12.4. -/
def Command.code : Command → Byte
  | .setMode _ => 0x01
  | .loadTerminals _ => 0x02
  | .unload _ => 0x03
  | .readTerminal _ => 0x04
  | .hold _ => 0x05
  | .release _ => 0x06
  | .forceLoss _ => 0x07
  | .cancelReentry _ => 0x08
  | .loadProfiles _ => 0x09
  | .loadBudget _ => 0x0A
  | .loadLevelTable _ _ => 0x0B
  | .loadFilters _ _ _ => 0x0C
  | .loadSectorParameters _ => 0x0D
  | .storm _ => 0x0E
  | .unlistedRead => 0x0F
  | .unlistedRelease => 0x10
  | .unlistedClearOverrun => 0x11
  | .readSector _ => 0x12
  | .setNoticeMask _ => 0x13
  | .sectorReset _ => 0x14

/-- The bytes of a command's parameters, from offset 5 of its cell (12.4). -/
def Command.params : Command → List Byte
  | .setMode v => [v]
  | .loadTerminals es => BitVec.ofNat 8 es.length :: es.flatMap entryBytes
  | .unload id => [id]
  | .readTerminal id => [id]
  | .hold id => [id]
  | .release id => [id]
  | .forceLoss id => [id]
  | .cancelReentry id => [id]
  | .loadProfiles t => t.flatMap profileBytes
  | .loadBudget b => b.flatMap halfBytes
  | .loadLevelTable ths h => ths.flatMap halfBytes ++ [h]
  | .loadFilters a b r => filterBytes a ++ (filterBytes b ++ filterBytes r)
  | .loadSectorParameters v => v.flatMap halfBytes
  | .storm l => [l]
  | .unlistedRead => []
  | .unlistedRelease => []
  | .unlistedClearOverrun => []
  | .readSector a => [a]
  | .setNoticeMask m => m
  | .sectorReset _ => []

/-- Whether a command's lists have the lengths its cell requires (R163 check 4). -/
def Command.lengthOk : Command → Bool
  | .loadTerminals es => 1 ≤ es.length && es.length ≤ 8
  | .loadProfiles t => t.length == 8
  | .loadBudget b => b.length == 8
  | .loadLevelTable ths _ => ths.length == 7
  | .loadSectorParameters v => v.length == 27
  | .setNoticeMask m => m.length == 18
  | _ => true

/-- The bytes of a downstream item as it stands on DS-in. A cell header on its own is no whole item. -/
def DsItem.bytes : DsItem → List Byte
  | .marker frame tail => itemBytes 0x01 (halfBytes frame ++ tail)
  | .map frame count body => itemBytes 0x02 (halfBytes frame ++ count :: body)
  | .control offered messages => itemBytes 0x03 (offered :: messages)
  | .cellHeader => []
  | .cell payload => itemBytes 0x04 payload
  | .command tag c => itemBytes 0x04 (c.code :: tag :: c.params)
  | .raw bytes => bytes
  | .cut bytes => bytes

/-- The bytes of an upstream item as it stands on US-in. -/
def UsItem.bytes : UsItem → List Byte
  | .burst kind b => itemBytes 0x11 (burstBody (grantCode kind) b)
  | .poll b => itemBytes 0x11 (burstBody 0x02 b)
  | .contention b => itemBytes 0x11 (burstBody 0x03 b)
  | .endOfFrame frame tail => itemBytes 0x12 (halfBytes frame ++ tail)
  | .raw bytes => bytes
  | .cut bytes => bytes

end Sys2Proof
end

