-- ==== Sys2Proof/Config.lean ====
section
/-! DEFINITION. What is fixed for the part: the capacities its rules state, and the free values, which the spec leaves
open. A free value is an opaque constant with no body: no proof can see what it is. -/

namespace Sys2Proof.Config

/-- Largest terminal ID: the table holds records 1..255 (R19). -/
def maxId : Nat := 255

/-- Places of the Insertion Queue (R5). -/
def insertionPlaces : Nat := 16

/-- Notices the Notice Queue holds at most (R176). -/
def noticePlaces : Nat := 64

/-- Entries the Unlisted Queue holds at most (R153). -/
def unlistedPlaces : Nat := 16

/-- Entries a map holds at most (R8, R80). -/
def mapEntries : Nat := 128

/-- Largest length an item's length field carries (12.1, R145). -/
def maxItemLength : Nat := 65535

/-- Slots of one upstream frame (00, "Units"; R76). -/
def frameSlots : Nat := 4096

/-- FREE VALUE (log 1). At one frame marker taken in RUN, the three stages of OT (R64) and the four of AC (R129)
interleave in an order the spec leaves open (R14, R71, R117). For the marker counted `n`, the list picks OT (`true`) or
AC (`false`) for one stage after another. -/
opaque markerPicks (n : Nat) : List Bool

/-- FREE VALUE (log 2). The order in which cancel resolution reaches the records (R70, "record by record"): at the marker
counted `n`, a record of lower rank is reached before one of higher rank. -/
opaque cancelRank (n : Nat) (id : Nat) : Nat

/-- FREE VALUE (log 3). Whether the silent selection of R44 stage 3 runs after a keepalive outcome that is not GOOD.
R44 names no outcome for stage 3, while R46 and R56 speak of selection after an update alone. -/
opaque selectAfterFailedKeepalive : Bool

/-- FREE VALUE (log 6). The level that DS-out's ready input stands at from the n-th idle step on: the modulator sets it as it
likes (R1). -/
opaque dsOutReady (n : Nat) : Bool

end Sys2Proof.Config
end

