-- ==== Sys2Proof/Machine/State.lean ====
section
/-! DEFINITION. Everything the part holds, block by block (chapter 00 "Block diagram"), as plain data, and the state after
power-on (R18 and the power-on rules of each chapter). -/

namespace Sys2Proof.Machine

/-! ## Names of the manual -/

/-- Operating mode (section 1.5). -/
inductive Mode where
  | config
  | run
  | coasting
deriving DecidableEq, Repr

/-- Class of a terminal; CRITICAL is the most important (00). -/
inductive Cls where
  | critical
  | high
  | low
deriving DecidableEq, Repr

/-- The nine states of a provisioned record (section 2.2). -/
inductive TState where
  | held
  | lost
  | polling
  | ranging
  | admitWait
  | confirming
  | inService
  | fading
  | shed
deriving DecidableEq, Repr

/-- Reason codes of losses, with the two values that are no cause of a loss (R58). -/
inductive LossReason where
  | none
  | fade
  | rangingFailed
  | confirmTimeout
  | rebooted
  | admin
  | cancelled
  | sectorReset
deriving DecidableEq, Repr

/-- A message held in a record's pending message slot (R142). -/
inductive Message where
  | rangeAdjust (timing power : Int)
  | admitMsg
  | profileSet
  | suspend
deriving DecidableEq, Repr

/-- The eighteen notice kinds, in notice code order (12.6). -/
inductive NoticeKind where
  | terminalLost
  | terminalAdmitted
  | terminalRestored
  | terminalShed
  | profileChanged
  | fadeWarning
  | fadingEntered
  | fadingCleared
  | holdGranted
  | reentryCancelled
  | unlistedArrived
  | unlistedOverrun
  | levelChanged
  | stormExpired
  | frameLost
  | frameRegained
  | regionViolation
  | mapMalformed
deriving DecidableEq, Repr

/-- Status codes of a response (R164). -/
inductive Status where
  | ok
  | busy
  | badMode
  | badId
  | badValue
  | badLength
  | vacant
  | notHeld
  | wrongState
  | duplicateAddress
  | badProfileOrder
  | empty
  | aborted
  | unknownCommand
deriving DecidableEq, Repr

/-! ## Records and entries -/

/-- A provisioned record of the Terminal Table, with the fields of R19 in the table's order. -/
structure Record where
  addr : Address
  cls : Cls
  load : Nat
  ceiling : Nat
  state : TState
  fade : Nat
  avg : Option Int
  profile : Nat
  holdOff : Nat
  backoff : Nat
  probation : Nat
  outageStart : Option MarkerCount
  cancelReq : Bool
  misses : Nat
  nextEligible : MarkerCount
  outstanding : Option FrameNumber
  keepaliveDue : MarkerCount
  attempts : Nat
  holdReq : Bool
  lastTiming : Int
  lastPower : Int
  cost : Nat
  confirmTimer : Option Nat
  admitTries : Nat
  message : Option Message
  losses : BitVec 8
  restorations : BitVec 8
  sheds : BitVec 8
  pollMisses : BitVec 8
  lastReason : LossReason
  lastOutage : Nat
deriving DecidableEq, Repr

/-- One entry of the Profile Table (R47). -/
structure ProfileEntry where
  enabled : Bool
  threshold : Int
  capacity : Nat
  overhead : Nat
deriving DecidableEq, Repr

/-- A storm in force (R111). -/
structure Storm where
  level : Nat
  remaining : Nat
deriving DecidableEq, Repr

/-- A filter of UQ (R151). -/
structure Filter where
  code : Address
  mask : Address
  enabled : Bool
deriving DecidableEq, Repr

/-- An entry of the Unlisted Queue (R153). -/
structure UnlistedEntry where
  addr : Address
  firstFrame : FrameNumber
  lastFrame : FrameNumber
  snr : Int
  timing : Int
  power : Int
  seen : Nat
deriving DecidableEq, Repr

/-- A notice record (R177). A value is a number, or a station address read as one (12.6). -/
structure Notice where
  kind : NoticeKind
  frame : FrameNumber
  id : Option Nat
  values : List Int
  gap : Bool
deriving DecidableEq, Repr

/-- A cell the part itself builds (R5): a response (R164) or a notice in a cell of its own (R179). -/
inductive PartCell where
  | response (tag code : Byte) (status : Status) (failing remaining : Nat) (data : List Byte)
  | notice (n : Notice)
deriving DecidableEq, Repr

/-- The command in flight, with its tag and its progress (R165). -/
inductive InFlight where
  | loadTerminals (tag : Byte) (entries : List ProvEntry) (applied : Nat)
  | loadProfiles (tag : Byte) (table : List ProfileEntry) (reclamped : Nat)
  | runEntry (tag : Byte) (stage : Nat)
  | sectorReset (tag : Byte) (step : Nat)
deriving DecidableEq, Repr

/-- The 27 sector parameters (section 11.6), in index order. -/
structure Params where
  warningLimit : Nat
  fadeExit : Nat
  probationStart : Nat
  probationLength : Nat
  fadeProfile : Nat
  snrShift : Nat
  upgradeHysteresis : Nat
  holdOffBase : Nat
  pollBase : Nat
  pollMax : Nat
  pMin : Nat
  pollLength : Nat
  pExtraMax : Nat
  regionStart : Nat
  latestPollStart : Nat
  timingTolerance : Nat
  powerTolerance : Nat
  maxTimingStep : Nat
  maxPowerStep : Nat
  rangingMaxAttempts : Nat
  confirmTimeout : Nat
  admitTriesMax : Nat
  keepaliveInterval : Nat
  admitMax : Nat
  messageBudget : Nat
  noticesPerReport : Nat
  watchdogTime : Nat
deriving DecidableEq, Repr

/-! ## The blocks -/

/-- A management cell's header on DS-in (R7). -/
inductive HeaderState where
  /-- no management cell is in passage -/
  | none
  /-- its header has been taken and no place is free: DS-in is held -/
  | waiting
  /-- its header has been taken and a place is reserved -/
  | reserved
deriving DecidableEq, Repr

/-- An upstream item ready to be forwarded; `eof` marks an end-of-frame report that causes emission (R6, R179). -/
structure Passage where
  bytes : List Byte
  eof : Bool
deriving DecidableEq, Repr

/-- The pins and the items in passage (R1, R2, R6, R7, R18). `dsOutReady` is the level of DS-out's ready input, and `dsItem`
the downstream item that waits while it is low (log 6). `emissionDue` is the emission of notices owed for an end-of-frame report
that has been sent, with the E of that report (R171, R179, log 7). `dsOut` and `usOut` are the model's record of what each output port
has sent, oldest first (log 18). -/
structure Paths where
  resetLow : Bool
  header : HeaderState
  dsOutReady : Bool
  dsItem : Option (List Byte)
  dsHeld : List DsItem
  usItem : Option Passage
  usHeld : List UsItem
  emissionDue : Option Nat
  dsOut : List (List Byte)
  usOut : List (List Byte)
deriving DecidableEq, Repr

/-- The Insertion Queue: its cells, head first, and the number of reserved places that hold no cell (R5, R7). -/
structure Insertion where
  cells : List PartCell
  reserved : Nat
deriving DecidableEq, Repr

/-- The sticky sector flags (R17). -/
structure Sticky where
  frameLostSeen : Bool
  mapMalformedSeen : Bool
  regionViolationSeen : Bool
  noticesDropped : Bool
deriving DecidableEq, Repr

/-- SI's mode, marker count, current frame number, watchdog (the time it is armed with) and sticky flags (R14 to R17). -/
structure Si where
  mode : Mode
  markerCount : MarkerCount
  frameNumber : FrameNumber
  watchdog : Option Nat
  sticky : Sticky
deriving DecidableEq, Repr

/-- TT: the provisioned records by ascending ID (an ID that is not listed is VACANT), and the Station Map by ascending ID
(R19, R22). -/
structure Tt where
  records : List (Nat × Record)
  stationMap : List (Nat × Address)
deriving DecidableEq, Repr

/-- LM's Profile Table, P0 first (R47). -/
structure Lm where
  profiles : List ProfileEntry
deriving DecidableEq, Repr

/-- OT's note, for the length of one marker operation, of the records its cancel resolution lost (R64). -/
structure Ot where
  lostNow : List Nat
deriving DecidableEq, Repr

/-- AC's state of chapters 7 and 8 (R108, R110, R111, R113, R114, R122, R124, R135). -/
structure Ac where
  thresholds : List Nat
  levelHold : Nat
  rawLevel : Nat
  heldLevel : Nat
  holdCounter : Nat
  storm : Option Storm
  banks : List Nat
  staged : Option (List Nat)
  effLevel : Nat
  bEff : Nat
  committedSum : Nat
  waitList : List Nat
  shedNote : List Nat
deriving DecidableEq, Repr

/-- MP's figures of the last map it edited (R82). -/
structure Mp where
  pollsPlaced : Nat
  reclaimedSlots : Nat
deriving DecidableEq, Repr

/-- UQ's filters, queue and overrun flag (R151, R153). -/
structure Uq where
  acceptA : Filter
  acceptB : Filter
  reject : Filter
  queue : List UnlistedEntry
  overrun : Bool
deriving DecidableEq, Repr

/-- MU's command in flight, Notice Queue, gap mark pending flag and notice mask in notice code order (R165, R176, R178). -/
structure Mu where
  inFlight : Option InFlight
  notices : List Notice
  gapPending : Bool
  mask : List Bool
deriving DecidableEq, Repr

/-- The whole part. `pending` is the queue of waiting commands; `raceTick` numbers the free choices of logs 1, 2
and 6. -/
structure State where
  pending : List Instr
  paths : Paths
  insertion : Insertion
  si : Si
  tt : Tt
  lm : Lm
  ot : Ot
  ac : Ac
  mp : Mp
  uq : Uq
  mu : Mu
  params : Params
  raceTick : Nat
deriving DecidableEq, Repr

/-- Reasons to stop with a fault. There is none: no rule of the spec stops the part (INVENTORY.md, "Faults"). -/
inductive Fault where
deriving DecidableEq, Repr

/-- Reasons to give a command no meaning. -/
inductive Refusal where
  /-- Raised by `exec` alone, in the arm of a command that has no meaning yet. Safe: the run stops. No arm raises it. -/
  | notModelled (mnemonic : String)
deriving DecidableEq, Repr

/-! ## Power-on values -/

/-- The defaults of section 11.6, which the parameters hold after power-on (R171). -/
def defaultParams : Params :=
  { warningLimit := 96, fadeExit := 64, probationStart := 64, probationLength := 500, fadeProfile := 0, snrShift := 2,
    upgradeHysteresis := 8, holdOffBase := 32, pollBase := 4, pollMax := 256, pMin := 4, pollLength := 3,
    pExtraMax := 16, regionStart := 0, latestPollStart := 4095, timingTolerance := 4, powerTolerance := 4,
    maxTimingStep := 256, maxPowerStep := 24, rangingMaxAttempts := 16, confirmTimeout := 16, admitTriesMax := 3,
    keepaliveInterval := 64, admitMax := 8, messageBudget := 8, noticesPerReport := 4, watchdogTime := 3000 }

/-- A disabled profile entry of the power-on table (R47). -/
def disabledProfile : ProfileEntry := { enabled := false, threshold := 160, capacity := 4, overhead := 0 }

/-- The power-on Profile Table (R47). -/
def powerOnProfiles : List ProfileEntry :=
  { enabled := true, threshold := -40, capacity := 12, overhead := 2 } :: List.replicate 7 disabledProfile

/-- A disabled filter with code and mask 0 (R151). -/
def disabledFilter : Filter := { code := 0, mask := 0, enabled := false }

/-- All sticky flags clear (R17). -/
def Sticky.clear : Sticky :=
  { frameLostSeen := false, mapMalformedSeen := false, regionViolationSeen := false, noticesDropped := false }

/-- The state right after power-on: RESET_N has risen and no item has been taken (R18, R47, R82, R92, R106, R108, R113,
R119, R140, R151, R153, R171, R176, R178, R181). That DS-out's ready input is high is the model's choice (log 6). -/
def State.reset : State :=
  { pending := []
    paths := { resetLow := false, header := .none, dsOutReady := true, dsItem := none, dsHeld := [], usItem := none,
               usHeld := [], emissionDue := none, dsOut := [], usOut := [] }
    insertion := { cells := [], reserved := 0 }
    si := { mode := .config, markerCount := 0, frameNumber := 0, watchdog := none, sticky := Sticky.clear }
    tt := { records := [], stationMap := [] }
    lm := { profiles := powerOnProfiles }
    ot := { lostNow := [] }
    ac := { thresholds := [50, 100, 200, 300, 450, 600, 800], levelHold := 32, rawLevel := 0, heldLevel := 0,
            holdCounter := 0, storm := none, banks := List.replicate 8 0, staged := none, effLevel := 0, bEff := 0,
            committedSum := 0, waitList := [], shedNote := [] }
    mp := { pollsPlaced := 0, reclaimedSlots := 0 }
    uq := { acceptA := disabledFilter, acceptB := disabledFilter, reject := disabledFilter, queue := [],
            overrun := false }
    mu := { inFlight := none, notices := [], gapPending := false, mask := List.replicate 18 true }
    params := defaultParams
    raceTick := 0 }

end Sys2Proof.Machine
end

