-- ==== Sys2Proof/Machine/Operands.lean ====
section
/-! DEFINITION. The operand forms of the wire that depend on the part's state: codes of results and notices (12.5, 12.6),
map entries (12.2), messages to terminals (12.2), result data (12.5) and the part's own cells (12.5, 12.6). -/

namespace Sys2Proof.Machine

/-! ## Numbers on the wire -/

/-- A one-byte field. -/
def byteOf (n : Nat) : Byte := BitVec.ofNat 8 n

/-- The bytes of a two-byte field. -/
def halfOf (n : Nat) : List Byte := halfBytes (BitVec.ofNat 16 n)

/-- The bytes of a four-byte field. -/
def wordOf (n : Nat) : List Byte := wordBytes (BitVec.ofNat 32 n)

/-- The bytes of a signed two-byte field, two's complement (chapter 12). -/
def signedHalfOf (n : Int) : List Byte := halfBytes (BitVec.ofInt 16 n)

/-- A one-byte flag, 00h or 01h. -/
def flagByte (b : Bool) : Byte := if b then 0x01 else 0x00

/-- "Clamped to lo..hi" (00, "Number conventions"). -/
def clamp (lo hi x : Int) : Int := max lo (min hi x)

/-! ## Codes (12.5, 12.6) -/

/-- Mode code. -/
def Mode.code : Mode → Nat
  | .config => 0
  | .run => 1
  | .coasting => 2

/-- Class number; a lower number is more important (00). -/
def Cls.code : Cls → Nat
  | .critical => 0
  | .high => 1
  | .low => 2

/-- The class a provisioning entry's byte names (12.4). -/
def Cls.ofByte (b : Byte) : Option Cls :=
  match b.toNat with
  | 0 => some .critical
  | 1 => some .high
  | 2 => some .low
  | _ => none

/-- State code; VACANT is 0. -/
def TState.code : TState → Nat
  | .held => 1
  | .lost => 2
  | .polling => 3
  | .ranging => 4
  | .admitWait => 5
  | .confirming => 6
  | .inService => 7
  | .fading => 8
  | .shed => 9

/-- Loss reason code. -/
def LossReason.code : LossReason → Nat
  | .none => 0
  | .fade => 1
  | .rangingFailed => 2
  | .confirmTimeout => 3
  | .rebooted => 4
  | .admin => 5
  | .cancelled => 6
  | .sectorReset => 7

/-- Pending message code; absent is 0. -/
def Message.code : Message → Nat
  | .rangeAdjust _ _ => 1
  | .admitMsg => 2
  | .profileSet => 3
  | .suspend => 4

/-- Status code. -/
def Status.code : Status → Nat
  | .ok => 0x00
  | .busy => 0x01
  | .badMode => 0x02
  | .badId => 0x03
  | .badValue => 0x04
  | .badLength => 0x05
  | .vacant => 0x06
  | .notHeld => 0x07
  | .wrongState => 0x08
  | .duplicateAddress => 0x09
  | .badProfileOrder => 0x0A
  | .empty => 0x0B
  | .aborted => 0x0C
  | .unknownCommand => 0x0D

/-- Notice kind code. -/
def NoticeKind.code : NoticeKind → Nat
  | .terminalLost => 0x01
  | .terminalAdmitted => 0x02
  | .terminalRestored => 0x03
  | .terminalShed => 0x04
  | .profileChanged => 0x05
  | .fadeWarning => 0x06
  | .fadingEntered => 0x07
  | .fadingCleared => 0x08
  | .holdGranted => 0x09
  | .reentryCancelled => 0x0A
  | .unlistedArrived => 0x0B
  | .unlistedOverrun => 0x0C
  | .levelChanged => 0x0D
  | .stormExpired => 0x0E
  | .frameLost => 0x0F
  | .frameRegained => 0x10
  | .regionViolation => 0x11
  | .mapMalformed => 0x12

/-! ## Map entries (12.2) -/

/-- One entry of a map. `profile` is the whole byte, so that a kept entry leaves as it arrived. -/
structure MapEntry where
  id : Byte
  kind : Byte
  profile : Byte
  start : BitVec 12
  length : BitVec 12
deriving DecidableEq, Repr

/-- The entries of a map's body, six bytes each; bytes that are no whole entry are not read. -/
def readMapEntries : List Byte → List MapEntry
  | id :: kind :: profile :: a :: b :: c :: rest =>
    { id := id, kind := kind, profile := profile, start := (a ++ b ++ c : BitVec 24).extractLsb' 12 12,
      length := (a ++ b ++ c : BitVec 24).extractLsb' 0 12 } :: readMapEntries rest
  | _ => []

/-- The bytes of one map entry. -/
def MapEntry.bytes (e : MapEntry) : List Byte :=
  let slots : BitVec 24 := e.start ++ e.length
  [e.id, e.kind, e.profile, slots.extractLsb' 16 8, slots.extractLsb' 8 8, slots.extractLsb' 0 8]

/-- First slot after an entry: start + length. -/
def MapEntry.stop (e : MapEntry) : Nat := e.start.toNat + e.length.toNat

/-! ## Messages to terminals (12.2, R146) -/

/-- The bytes of one message, with its contents read at emission. -/
def messageBytes (id : Nat) (r : Record) : Message → List Byte
  | .rangeAdjust timing power =>
    0x61 :: byteOf id :: (addressBytes r.addr ++ BitVec.ofInt 8 power :: signedHalfOf timing)
  | .admitMsg => 0x62 :: byteOf id :: (addressBytes r.addr ++ [byteOf r.profile])
  | .profileSet => 0x63 :: byteOf id :: (addressBytes r.addr ++ [byteOf r.profile])
  | .suspend => 0x64 :: byteOf id :: addressBytes r.addr

/-! ## Result data (12.5) -/

/-- A byte of flags from its bits, bit 0 first. -/
def bitsByte (bits : List Bool) : Byte :=
  byteOf ((bits.zipIdx.map fun (b, i) => if b then 2 ^ i else 0).sum)

/-- The READ_TERMINAL result, 53 bytes. -/
def terminalResult (r : Record) (place : Nat) : List Byte :=
  addressBytes r.addr ++ byteOf r.cls.code :: (halfOf r.load ++ byteOf r.ceiling :: byteOf r.state.code ::
    bitsByte [r.avg.isSome, r.outageStart.isSome, r.cancelReq, r.outstanding.isSome, r.holdReq, r.confirmTimer.isSome] ::
    byteOf r.fade :: (signedHalfOf (r.avg.getD 0) ++ byteOf r.profile :: (halfOf r.holdOff ++ byteOf r.backoff ::
    (halfOf r.probation ++ (wordBytes (r.outageStart.getD 0) ++ byteOf r.misses :: (wordBytes r.nextEligible ++
    (halfBytes (r.outstanding.getD 0) ++ (wordBytes r.keepaliveDue ++ byteOf r.attempts ::
    (signedHalfOf r.lastTiming ++ BitVec.ofInt 8 r.lastPower :: (halfOf r.cost ++ byteOf (r.confirmTimer.getD 0) ::
    byteOf r.admitTries :: byteOf ((r.message.map Message.code).getD 0) :: r.losses :: r.restorations :: r.sheds ::
    r.pollMisses :: byteOf r.lastReason.code :: (halfOf r.lastOutage ++ [byteOf place])))))))))))

/-- The UNLISTED_READ result, 18 bytes. -/
def unlistedResult (e : UnlistedEntry) (entries : Nat) (overrun : Bool) : List Byte :=
  addressBytes e.addr ++ (halfBytes e.firstFrame ++ (halfBytes e.lastFrame ++ (signedHalfOf e.snr ++
    (signedHalfOf e.timing ++ [BitVec.ofInt 8 e.power, byteOf e.seen, byteOf entries, flagByte overrun]))))

/-! ## The part's own cells (12.5, 12.6) -/

/-- The bytes of a response cell or a notice cell as it is sent on US-out. -/
def PartCell.bytes : PartCell → List Byte
  | .response tag code status failing remaining data =>
    itemBytes 0x21 (tag :: code :: byteOf status.code :: byteOf failing :: byteOf remaining :: data)
  | .notice n =>
    itemBytes 0x22 (byteOf n.kind.code :: (halfBytes n.frame ++ bitsByte [n.id.isSome, n.gap] ::
      byteOf (n.id.getD 0) :: byteOf n.values.length ::
      n.values.flatMap fun v => addressBytes (BitVec.ofInt 48 v)))

end Sys2Proof.Machine
end

