-- ==== Sys2Proof/Machine/Ops.lean ====
section
/-! DEFINITION. The named operations over the part's state that every block uses: reading and changing records, lists by
priority (00), the Insertion Queue (R5, R7), the forwarding of items (R1). -/

namespace Sys2Proof.Machine

/-! ## Tables kept by ascending key -/

/-- The value listed under a key. -/
def assocGet {α : Type} : List (Nat × α) → Nat → Option α
  | [], _ => none
  | (k, v) :: rest, key => if k = key then some v else assocGet rest key

/-- Lists a value under a key, at its place by ascending key. -/
def assocPut {α : Type} : List (Nat × α) → Nat → α → List (Nat × α)
  | [], key, v => [(key, v)]
  | (k, w) :: rest, key, v =>
    if key < k then (key, v) :: (k, w) :: rest
    else if k = key then (key, v) :: rest
    else (k, w) :: assocPut rest key v

/-- Removes what is listed under a key. -/
def assocErase {α : Type} (l : List (Nat × α)) (key : Nat) : List (Nat × α) := l.filter fun e => e.1 ≠ key

/-- Changes what is listed under a key, where something is. -/
def assocUpdate {α : Type} (l : List (Nat × α)) (key : Nat) (f : α → α) : List (Nat × α) :=
  l.map fun e => if e.1 = key then (e.1, f e.2) else e

/-! ## Records (R19, R20) -/

/-- The provisioned record of an ID; `none` is VACANT (R19). -/
def State.record? (s : State) (id : Nat) : Option Record := assocGet s.tt.records id

/-- Replaces the table of records. -/
def State.setRecords (s : State) (rs : List (Nat × Record)) : State := { s with tt := { s.tt with records := rs } }

/-- Changes one provisioned record. -/
def State.update (s : State) (id : Nat) (f : Record → Record) : State := s.setRecords (assocUpdate s.tt.records id f)

/-- Changes every provisioned record, by its ID. -/
def State.updateAll (s : State) (f : Nat → Record → Record) : State :=
  s.setRecords (s.tt.records.map fun e => (e.1, f e.1 e.2))

/-- The IDs of the provisioned records, in the table's order. -/
def State.ids (s : State) : List Nat := s.tt.records.map (·.1)

/-- Runs an operation with the record of an ID, where one is provisioned. -/
def State.withRecord (s : State) (id : Nat) (f : Record → State) : State :=
  match s.record? id with
  | some r => f r
  | none => s

/-- The state field of an ID, `none` for VACANT. -/
def State.stateOf (s : State) (id : Nat) : Option TState := (s.record? id).map (·.state)

/-- The committed states (section 2.2). -/
def TState.committed : TState → Bool
  | .confirming => true
  | .inService => true
  | .fading => true
  | _ => false

/-- The outage states (section 2.2, R107). -/
def TState.outage : TState → Bool
  | .lost => true
  | .polling => true
  | .ranging => true
  | _ => false

/-- The states on the wait list (R124). -/
def TState.waiting : TState → Bool
  | .admitWait => true
  | .shed => true
  | _ => false

/-! ## Priority order (00, "Terminal IDs, classes and profiles") -/

/-- Whether (class, ID) stands before another in priority order: class ascending, then ID ascending. -/
def precedes (a b : Nat × Nat) : Bool := a.1 < b.1 || (a.1 == b.1 && a.2 < b.2)

/-- The priority key of an ID: its class number and the ID. -/
def State.priorityKey (s : State) (id : Nat) : Nat × Nat := (((s.record? id).map (·.cls.code)).getD 3, id)

/-- Places an ID in a list at the place a strict order gives it. -/
def insertBy (before : Nat → Nat → Bool) (id : Nat) : List Nat → List Nat
  | [] => [id]
  | x :: rest => if before id x then id :: x :: rest else x :: insertBy before id rest

/-- Orders a list of IDs by a strict order. -/
def sortBy (before : Nat → Nat → Bool) (ids : List Nat) : List Nat := ids.foldr (insertBy before) []

/-- Whether an ID stands before another in priority order. -/
def State.outranks (s : State) (a b : Nat) : Bool := precedes (s.priorityKey a) (s.priorityKey b)

/-- The provisioned IDs whose record meets a condition, in priority order. -/
def State.inPriority (s : State) (p : Record → Bool) : List Nat :=
  sortBy s.outranks ((s.tt.records.filter fun e => p e.2).map (·.1))

/-! ## Marker counts (00, "Counts and frame numbers") -/

/-- "x is at or before now", on the wrapping difference (R77). -/
def due (now x : MarkerCount) : Bool := (now - x).toNat < 2 ^ 31

/-- A marker count some frames after another. -/
def after (now : MarkerCount) (frames : Nat) : MarkerCount := now + BitVec.ofNat 32 frames

/-! ## The Insertion Queue and the output ports -/

/-- Free places: they hold no cell and are not reserved (R7). -/
def State.freePlaces (s : State) : Nat := Config.insertionPlaces - s.insertion.cells.length - s.insertion.reserved

/-- Reserves a place for a response (R7). -/
def State.reservePlace (s : State) : State :=
  { s with insertion := { s.insertion with reserved := s.insertion.reserved + 1 } }

/-- Releases a reserved place that holds no cell (R163 check 1). -/
def State.releasePlace (s : State) : State :=
  { s with insertion := { s.insertion with reserved := s.insertion.reserved - 1 } }

/-- Places a response in its reserved place: it joins the tail of the Insertion Queue (R5, R7, R164). -/
def State.placeResponse (s : State) (tag code : Byte) (status : Status) (failing remaining : Nat) (data : List Byte) :
    State :=
  { s with insertion := { cells := s.insertion.cells ++ [.response tag code status failing remaining data]
                          reserved := s.insertion.reserved - 1 } }

/-- Sends an item on DS-out (R1). -/
def State.sendDs (s : State) (bytes : List Byte) : State :=
  { s with paths := { s.paths with dsOut := s.paths.dsOut ++ [bytes] } }

/-- Keeps an item waiting for DS-out (R1). -/
def State.waitDs (s : State) (bytes : List Byte) : State := { s with paths := { s.paths with dsItem := some bytes } }

/-- Offers an item on DS-out: it is sent while the modulator holds DS-out's ready input high, and waits while it is low (R1;
log 6). -/
def State.offerDs (s : State) (bytes : List Byte) : State :=
  if s.paths.dsOutReady then s.sendDs bytes else s.waitDs bytes

/-- Readies an item for US-out: it takes the upstream path (R1, R6). -/
def State.readyUs (s : State) (bytes : List Byte) (eof : Bool) : State :=
  { s with paths := { s.paths with usItem := some { bytes := bytes, eof := eof } } }

/-- Sets the command in flight (R165). -/
def State.setInFlight (s : State) (c : Option InFlight) : State := { s with mu := { s.mu with inFlight := c } }

/-- Sets the operating mode. -/
def State.setMode (s : State) (m : Mode) : State := { s with si := { s.si with mode := m } }

/-! ## Airtime accounts and the wait list (R121, R122, R124) -/

/-- Sets the committed sum. -/
def State.setSum (s : State) (sum : Nat) : State := { s with ac := { s.ac with committedSum := sum } }

/-- Sets the wait list. -/
def State.setWaitList (s : State) (l : List Nat) : State := { s with ac := { s.ac with waitList := l } }

/-- Places a terminal on the wait list, at the place its class and ID give it (R124). -/
def State.joinWaitList (s : State) (id : Nat) : State := s.setWaitList (insertBy s.outranks id s.ac.waitList)

/-- Takes a terminal off the wait list (R124). -/
def State.leaveWaitList (s : State) (id : Nat) : State := s.setWaitList (s.ac.waitList.filter (· ≠ id))

/-- A record's place on the wait list, counted from 1 at the head, 0 when it is not on it (R33). -/
def State.waitPlace (s : State) (id : Nat) : Nat :=
  match s.ac.waitList.findIdx? (· == id) with
  | some i => i + 1
  | none => 0

/-! ## The Profile Table (R47, R50) -/

/-- The entry of a profile. -/
def profileAt (t : List ProfileEntry) (p : Nat) : ProfileEntry := t.getD p disabledProfile

/-- The highest enabled profile at or below a bound that meets a condition, P0 if none does. -/
def highestProfile (t : List ProfileEntry) (bound : Nat) (ok : ProfileEntry → Bool) : Nat :=
  (((List.range (bound + 1)).filter fun p => (profileAt t p).enabled && ok (profileAt t p)).getLast?).getD 0

/-- The effective ceiling: the highest enabled profile at or below a record's ceiling (R50). -/
def effectiveCeiling (t : List ProfileEntry) (r : Record) : Nat := highestProfile t r.ceiling fun _ => true

/-- Re-clamps a record: its assigned profile falls to its effective ceiling when it is above it (R50). -/
def reclamp (t : List ProfileEntry) (r : Record) : Record :=
  if r.profile > effectiveCeiling t r then { r with profile := effectiveCeiling t r } else r

/-- The airtime cost of a load on a profile, H + ceil(L / C) (R120). -/
def airtimeCost (t : List ProfileEntry) (load p : Nat) : Nat :=
  (profileAt t p).overhead + (load + (profileAt t p).capacity - 1) / (profileAt t p).capacity

end Sys2Proof.Machine
end

