-- ==== Sys2Proof/Machine/Flags.lean ====
section
/-! DEFINITION. Flags and the Notice Queue: the sticky sector flags (R17), the gap mark (R176, R177), the notice mask
(R178) and the queuing of a notice by any block. -/

namespace Sys2Proof.Machine

/-- Sets FRAME_LOST_SEEN (R16, R17). -/
def State.setFrameLostSeen (s : State) : State :=
  { s with si := { s.si with sticky := { s.si.sticky with frameLostSeen := true } } }

/-- Sets MAP_MALFORMED_SEEN (R8, R17). -/
def State.setMapMalformedSeen (s : State) : State :=
  { s with si := { s.si with sticky := { s.si.sticky with mapMalformedSeen := true } } }

/-- Sets REGION_VIOLATION_SEEN (R74, R17). -/
def State.setRegionViolationSeen (s : State) : State :=
  { s with si := { s.si with sticky := { s.si.sticky with regionViolationSeen := true } } }

/-- Clears the four sticky flags (R13, R175). -/
def State.clearSticky (s : State) : State := { s with si := { s.si with sticky := Sticky.clear } }

/-- The sticky flags as READ_SECTOR reports them, bit 0 first (12.5). -/
def Sticky.bits (f : Sticky) : List Bool :=
  [f.frameLostSeen, f.regionViolationSeen, f.mapMalformedSeen, f.noticesDropped]

/-- Whether the notice mask enables a kind: its byte is the kind's code, counted from 1 (12.6). -/
def State.noticeEnabled (s : State) (kind : NoticeKind) : Bool := s.mu.mask.getD (kind.code - 1) true

/-- Queues a notice (R177): masked, dropped with the gap mark pending and NOTICES_DROPPED set, or appended, stamped with
the current frame number and the gap mark. -/
def State.notify (s : State) (kind : NoticeKind) (id : Option Nat) (values : List Int) : State :=
  if s.noticeEnabled kind = false then s
  else if Config.noticePlaces ≤ s.mu.notices.length then
    { s with mu := { s.mu with gapPending := true }
             si := { s.si with sticky := { s.si.sticky with noticesDropped := true } } }
  else
    { s with mu := { s.mu with
        notices := s.mu.notices ++
          [{ kind := kind, frame := s.si.frameNumber, id := id, values := values, gap := s.mu.gapPending }]
        gapPending := false } }

end Sys2Proof.Machine
end

