-- ==== Sys2Proof/Machine/Capacity.lean ====
section
/-! DEFINITION. AC, shedding (sections 8.1 to 8.4): victims, the shed of one terminal and the shed check. -/

namespace Sys2Proof.Machine

/-- Whether a terminal can be a victim: in a committed state with an admitted cost above 0 (R125). -/
def sheddable (r : Record) : Bool := r.state.committed && 0 < r.cost

/-- The first terminal in victim order, the reverse of priority order, among those that meet a condition (R125). -/
def State.victim? (s : State) (among : Record → Bool) : Option Nat := (s.inPriority among).getLast?

/-- The fields of a record shed at a marker count (R127 steps 1 to 4). -/
def shedRecord (now : MarkerCount) (r : Record) : Record :=
  { r with cost := 0, state := .shed, keepaliveDue := now, confirmTimer := none, admitTries := 0,
           message := some .suspend, sheds := r.sheds + 1 }

/-- Notes a terminal as shed in the marker operation under way (R135). -/
def State.noteShed (s : State) (id : Nat) : State := { s with ac := { s.ac with shedNote := s.ac.shedNote ++ [id] } }

/-- Sheds one terminal (R127). `noted` says that AC's marker operation sheds it (R135). -/
def State.shedTerminal (s : State) (noted : Bool) (id : Nat) : State :=
  s.withRecord id fun r =>
    let s := s.setSum (s.ac.committedSum - r.cost)
    let s := s.update id (shedRecord s.si.markerCount)
    let s := s.notify .terminalShed (some id) [r.cost]
    let s := s.joinWaitList id
    if noted then s.noteShed id else s

/-- Sheds victims one after another while the committed sum is greater than B_eff, at most so many. -/
def State.shedWhileOver (noted : Bool) : Nat → State → State
  | 0, s => s
  | n + 1, s =>
    if s.ac.committedSum ≤ s.ac.bEff then s
    else
      match s.victim? sheddable with
      | none => s
      | some id => State.shedWhileOver noted n (s.shedTerminal noted id)

/-- The shed check (R126). A terminal is shed at most once, so the number of records bounds the check (log 23). -/
def State.shedCheck (s : State) (noted : Bool) : State := State.shedWhileOver noted s.tt.records.length s

end Sys2Proof.Machine
end

