-- ==== Sys2Proof/Machine/Outage.lean ====
section
/-! DEFINITION. OT (chapter 4): the loss procedure with its exceptions, the grant of a stored hold, restoration
accounting, and what OT does with a record at a marker. -/

namespace Sys2Proof.Machine

/-- Whether a loss raises the backoff exponent (R60). -/
def raisesBackoff (reason : LossReason) (r : Record) : Bool :=
  match reason with
  | .rangingFailed => true
  | .confirmTimeout => true
  | .fade => 0 < r.probation
  | _ => false

/-- The backoff exponent after step 5 of the loss procedure (R60). -/
def backoffAfterLoss (reason : LossReason) (r : Record) : Nat :=
  if raisesBackoff reason r then min 6 (r.backoff + 1) else r.backoff

/-- The hold-off of an exponent: min(base × 2^b, 4095) (R61). -/
def holdOffOf (base b : Nat) : Nat := min (base * 2 ^ b) 4095

/-- Whether a loss ends in HELD: a RANGING terminal with a hold request set and one of three reasons (R63). -/
def lossGrantsHold (reason : LossReason) (r : Record) : Bool :=
  r.state == .ranging && r.holdReq && (reason == .rangingFailed || reason == .admin || reason == .cancelled)

/-- The state a loss ends in (R59 step 10, R62, R63). -/
def stateAfterLoss (reason : LossReason) (r : Record) : TState :=
  if reason = .rebooted then .ranging else if lossGrantsHold reason r then .held else .lost

/-- The hold-off a loss leaves (R61, R62, R63). -/
def holdOffAfterLoss (base : Nat) (reason : LossReason) (r : Record) : Nat :=
  if reason = .rebooted ∨ lossGrantsHold reason r then 0 else holdOffOf base (backoffAfterLoss reason r)

/-- The fields of a lost record (R59 steps 1 and 3 to 10). -/
def lostRecord (base : Nat) (now : MarkerCount) (reason : LossReason) (r : Record) : Record :=
  { r with
    cost := 0
    outstanding := none
    message := none
    confirmTimer := none
    admitTries := 0
    fade := 0
    avg := none
    attempts := 0
    misses := 0
    backoff := backoffAfterLoss reason r
    probation := 0
    holdOff := holdOffAfterLoss base reason r
    outageStart := some (r.outageStart.getD now)
    losses := r.losses + 1
    lastReason := reason
    state := stateAfterLoss reason r
    holdReq := r.holdReq && !lossGrantsHold reason r }

/-- The notice of a hold granted as a ranging exchange ends (R31). -/
def State.notifyHoldGranted (s : State) (id : Nat) (state : TState) : State :=
  s.notify .holdGranted (some id) [state.code]

/-- The loss procedure (R59), with the exceptions of R62 and R63 and the grant of R31. -/
def State.lose (s : State) (reason : LossReason) (id : Nat) : State :=
  s.withRecord id fun r =>
    let s := if r.state.committed then s.setSum (s.ac.committedSum - r.cost) else s
    let s := if r.state.waiting then s.leaveWaitList id else s
    let s := s.update id (lostRecord s.params.holdOffBase s.si.markerCount reason)
    let s := s.notify .terminalLost (some id)
      [reason.code, r.state.code, holdOffAfterLoss s.params.holdOffBase reason r]
    if lossGrantsHold reason r then s.notifyHoldGranted id .ranging else s

/-- The outage length a confirmation finds, saturating, where the outage start is present (R67 step 1). -/
def outageLength (now start : MarkerCount) : Nat := min 65535 (now - start).toNat

/-- The fields restoration accounting changes (R67 steps 1 to 3). -/
def restoredRecord (probationLength : Nat) (now : MarkerCount) (r : Record) : Record :=
  { r with
    lastOutage := match r.outageStart with
      | some start => outageLength now start
      | none => r.lastOutage
    outageStart := none
    restorations := r.restorations + 1
    probation := probationLength
    backoff := if probationLength = 0 then r.backoff - 1 else r.backoff }

/-- Restoration accounting within a confirmation (R67). -/
def State.restore (s : State) (id : Nat) : State :=
  s.withRecord id fun r =>
    let r' := restoredRecord s.params.probationLength s.si.markerCount r
    let s := s.update id (restoredRecord s.params.probationLength s.si.markerCount)
    s.notify .terminalRestored (some id)
      [match r.outageStart with
        | some start => outageLength s.si.markerCount start
        | none => (0 : Nat), r'.backoff]

/-! ## Records at a marker (R64 to R66, R70) -/

/-- The states in which a cancel request gives up a re-entry (R70). -/
def cancellable : TState → Bool
  | .polling => true
  | .ranging => true
  | .admitWait => true
  | _ => false

/-- The too-late indication of a cancel request (R70). -/
def cancelTooLate (state : TState) : Bool := !(cancellable state || state == .lost)

/-- Notes a record as lost by cancel resolution in the marker operation under way (R64). -/
def State.noteLost (s : State) (id : Nat) : State := { s with ot := { lostNow := s.ot.lostNow ++ [id] } }

/-- Resolves the cancel request of one record, where it is set (R70). -/
def State.resolveCancel (s : State) (id : Nat) : State :=
  s.withRecord id fun r =>
    if r.cancelReq then
      let s := s.update id fun r => { r with cancelReq := false }
      let s := if cancellable r.state then (s.lose .cancelled id).noteLost id else s
      s.notify .reentryCancelled (some id) [(if cancelTooLate r.state then 1 else 0 : Nat), r.state.code]
    else s

/-- A LOST record at stage 2 of OT's marker operation; any other record is not visited (R65). -/
def holdOffVisit (now : MarkerCount) (r : Record) : Record :=
  if r.state = .lost then
    if r.holdOff = 0 then { r with state := .polling, misses := 0, nextEligible := now }
    else { r with holdOff := r.holdOff - 1 }
  else r

/-- A committed record with its probation timer above 0 at stage 3; any other record is not visited (R66). -/
def probationVisit (r : Record) : Record :=
  if r.state.committed ∧ 0 < r.probation then
    { r with probation := r.probation - 1, backoff := if r.probation = 1 then r.backoff - 1 else r.backoff }
  else r

/-- Stage 1 of OT's marker operation: cancel resolution, reaching the records by rank (R64, R70; log 2). -/
def State.cancelStage (rank : Nat → Nat) (s : State) : State :=
  (sortBy (fun a b => rank a < rank b) s.ids).foldl State.resolveCancel s

/-- Stage 2: the hold-off countdown. A record lost in stage 1 of this operation is not counted (R64, R65). -/
def State.holdOffStage (s : State) : State :=
  s.updateAll fun id r => if id ∈ s.ot.lostNow then r else holdOffVisit s.si.markerCount r

/-- Stage 3: the probation countdown (R66). -/
def State.probationStage (s : State) : State := s.updateAll fun _ r => probationVisit r

end Sys2Proof.Machine
end

