-- ==== Sys2Proof/Machine/Link.lean ====
section
/-! DEFINITION. LM (chapter 3): the fade counter, the averaged SNR, selection, profile changes, and the handling of the
reports LM counts; with the confirmation of a terminal (R136). -/

namespace Sys2Proof.Machine

/-! ## The averaged SNR (R45) -/

/-- An SNR sample clamped to -40..160 qdB (R45, R153). -/
def clampSnr (x : Int) : Int := clamp (-40) 160 x

/-- The average after one sample in qdB, with SNR shift `k`; the division rounds toward minus infinity (R45). -/
def averaged (k : Nat) (avg : Option Int) (sample : Int) : Int :=
  match avg with
  | none => clampSnr sample * 16
  | some a => a + (clampSnr sample * 16 - a) / 2 ^ k

/-- Averages one sample into a record. -/
def averageInto (k : Nat) (sample : Int) (r : Record) : Record := { r with avg := some (averaged k r.avg sample) }

/-- The selection value v = floor(avg / 16) in qdB (R45). -/
def selectionValue (avg : Int) : Int := avg / 16

/-! ## Selection (R51 to R53) -/

/-- The profile of the downgrade test: unchanged, or the highest enabled profile the average carries (R51). Where a new table
has disabled the assigned profile, the T of its disabled entry is compared, and the profile found may be above the assigned
one: the model's choice (log 19). -/
def downgrade (t : List ProfileEntry) (r : Record) (v : Int) : Nat :=
  if (profileAt t r.profile).threshold > v then
    highestProfile t (effectiveCeiling t r) fun e => e.threshold ≤ v
  else r.profile

/-- The profile of the upgrade test: the candidate where it is above the assigned profile (R52). -/
def upgrade (t : List ProfileEntry) (hysteresis : Nat) (r : Record) (v : Int) : Nat :=
  let candidate := highestProfile t (effectiveCeiling t r) fun e => e.threshold + hysteresis ≤ v
  if r.profile < candidate then candidate else r.profile

/-- The profile selection gives a record on its average; without an average there is no selection (R46, log 22). -/
def selected (t : List ProfileEntry) (hysteresis : Nat) (r : Record) : Nat :=
  match r.avg with
  | none => r.profile
  | some avg =>
    let v := selectionValue avg
    if downgrade t r v ≠ r.profile then downgrade t r v
    else if r.state = .fading then r.profile
    else upgrade t hysteresis r v

/-! ## Profile changes (R54 to R56) -/

/-- The record after a profile change: profile, cost and message (R54). -/
def reprofiled (t : List ProfileEntry) (p : Nat) (r : Record) : Record :=
  { r with
    profile := p
    cost := airtimeCost t r.load p
    message := if r.state = .confirming ∧ r.message = some .admitMsg then r.message else some .profileSet }

/-- A profile change of a committed terminal, where the profile differs: message, cost, notice, and the shed check when
the cost rises (R54, R55, R56). -/
def State.changeProfile (s : State) (id p : Nat) : State :=
  s.withRecord id fun r =>
    if p = r.profile then s
    else
      let cost := airtimeCost s.lm.profiles r.load p
      let s := s.update id (reprofiled s.lm.profiles p)
      let s := s.setSum (s.ac.committedSum + cost - r.cost)
      let s := s.notify .profileChanged (some id) [r.profile, p, cost]
      if r.cost < cost then s.shedCheck false else s

/-- Selection of a committed terminal (R43 stage 4). -/
def State.selectCommitted (s : State) (id : Nat) : State :=
  s.withRecord id fun r => s.changeProfile id (selected s.lm.profiles s.params.upgradeHysteresis r)

/-- Silent selection of a SHED terminal (R53). -/
def State.selectSilently (s : State) (id : Nat) : State :=
  s.update id fun r => { r with profile := selected s.lm.profiles s.params.upgradeHysteresis r }

/-! ## The fade counter (R38 to R42) -/

/-- What a failed burst adds (R39). -/
def fadeStep : BurstOutcome → Nat
  | .good => 0
  | .crcBad => 4
  | .missed => 8

/-- The pin target of FADING entry (R41). -/
def pinTarget (t : List ProfileEntry) (fadeProfile : Nat) (r : Record) : Nat :=
  highestProfile t (min r.profile fadeProfile) fun _ => true

/-- FADING entry of an IN_SERVICE terminal, with its notices and the pin (R41). -/
def State.enterFading (s : State) (id : Nat) : State :=
  s.withRecord id fun r =>
    let target := pinTarget s.lm.profiles s.params.fadeProfile r
    let s := s.update id fun r => { r with state := .fading }
    let s := s.notify .fadingEntered (some id) [r.fade, target]
    if target < r.profile then s.changeProfile id target else s

/-- Counts a failed burst: the loss above 255, the counter, the warning (R39, R40). -/
def State.countFailure (s : State) (id : Nat) (o : BurstOutcome) : State :=
  s.withRecord id fun r =>
    if 255 < r.fade + fadeStep o then s.lose .fade id
    else
      let fade := r.fade + fadeStep o
      let s := s.update id fun r => { r with fade := fade }
      if r.fade ≤ s.params.warningLimit ∧ s.params.warningLimit < fade then s.notify .fadeWarning (some id) [fade]
      else s

/-- Fade counting of a failed DATA or REPORT burst of a committed terminal, with FADING entry (R39 to R41). -/
def State.failedReport (s : State) (id : Nat) (o : BurstOutcome) : State :=
  let s := s.countFailure id o
  s.withRecord id fun r => if r.state = .inService ∧ 127 < r.fade then s.enterFading id else s

/-- Fade counting of a GOOD DATA or REPORT burst: the decrease and the FADING exit; a CONFIRMING terminal's counter is left
to confirmation (R39, R42). -/
def State.goodReport (s : State) (id : Nat) : State :=
  s.withRecord id fun r =>
    if r.state = .confirming then s
    else
      let fade := r.fade - 1
      let s := s.update id fun r => { r with fade := fade }
      if r.state = .fading ∧ fade ≤ s.params.fadeExit then
        (s.update id fun r => { r with state := .inService }).notify .fadingCleared (some id) [fade]
      else s

/-! ## Confirmation (R136) -/

/-- The fields confirmation changes before restoration accounting (R136 steps 1 to 4). -/
def confirmedRecord (probationStart : Nat) (r : Record) : Record :=
  { r with
    state := .inService
    fade := probationStart
    confirmTimer := none
    message := if r.message = some .admitMsg then none else r.message }

/-- Confirms a CONFIRMING terminal; no other terminal is touched (R43 stage 2, R136). -/
def State.confirmIfWaiting (s : State) (id : Nat) : State :=
  s.withRecord id fun r =>
    if r.state = .confirming then (s.update id (confirmedRecord s.params.probationStart)).restore id else s

/-! ## The reports LM counts -/

/-- A DATA or REPORT burst report handed to LM: one operation of four stages for a committed terminal, no effect for any
other (R38, R43). `snr` is the sample of a GOOD report. -/
def State.grantReport (s : State) (id : Nat) (o : BurstOutcome) (snr : Int) : State :=
  s.withRecord id fun r =>
    if r.state.committed then
      match o with
      | .good =>
        let s := s.goodReport id
        let s := s.confirmIfWaiting id
        let s := s.update id (averageInto s.params.snrShift snr)
        s.selectCommitted id
      | o => s.failedReport id o
    else s

/-- LM's count of a keepalive outcome of a SHED terminal (R44). After an outcome that is not GOOD, and no loss, stage 3 is
left to `select` (log 3). -/
def State.countKeepalive (select : Bool) (s : State) (id : Nat) (o : BurstOutcome) (snr : Int) : State :=
  match o with
  | .good =>
    let s := s.update id fun r => { r with fade := r.fade - 1 }
    let s := s.update id (averageInto s.params.snrShift snr)
    s.selectSilently id
  | o =>
    let s := s.countFailure id o
    if select ∧ s.stateOf id = some .shed then s.selectSilently id else s

end Sys2Proof.Machine
end

