-- ==== Sys2Proof/Machine/Ranging.lean ====
section
/-! DEFINITION. RU (chapter 6): the ranging measurement, ranging, corrections and attempts, contention ranging from listed
stations, and the grant of a hold as an exchange ends ranged (R31). -/

namespace Sys2Proof.Machine

/-- What a burst report measures, as RU, LM and UQ read it: the signed fields of the wire (R94, 12.3). -/
structure Measurement where
  outcome : BurstOutcome
  snr : Int
  timing : Int
  power : Int
deriving DecidableEq, Repr

/-- The measurement a burst report carries. -/
def measurementOf (b : Burst) : Measurement :=
  { outcome := b.outcome, snr := b.snr.toInt, timing := b.timing.toInt, power := b.power.toInt }

/-- The MISSED that MP infers at an end-of-frame report (R87). -/
def inferredMissed : Measurement := { outcome := .missed, snr := 0, timing := 0, power := 0 }

/-- A timing error clamped to -2048..2047 qsym (R94, R153). -/
def clampTiming (x : Int) : Int := clamp (-2048) 2047 x

/-- A power error clamped to -128..127 qdB (R94, R153). -/
def clampPower (x : Int) : Int := clamp (-128) 127 x

/-- A correction: 0 for an error inside its tolerance, otherwise the opposite of the clamped error, within the step limit
(R96). -/
def correction (tolerance maxStep : Nat) (err : Int) : Int :=
  if err.natAbs ≤ tolerance then 0 else clamp (-maxStep) maxStep (-err)

/-- The RANGE_ADJUST for clamped errors (R96). -/
def rangeAdjust (p : Params) (timing power : Int) : Message :=
  .rangeAdjust (correction p.timingTolerance p.maxTimingStep timing) (correction p.powerTolerance p.maxPowerStep power)

/-- The tolerance test on clamped errors (R94 stage 4). -/
def inTolerance (p : Params) (timing power : Int) : Bool :=
  timing.natAbs ≤ p.timingTolerance && power.natAbs ≤ p.powerTolerance

/-- The initial profile of a ranged terminal (R95 step 1). -/
def initialProfile (t : List ProfileEntry) (r : Record) : Nat :=
  match r.avg with
  | none => 0
  | some avg => highestProfile t (effectiveCeiling t r) fun e => e.threshold ≤ selectionValue avg

/-- A pending RANGE_ADJUST is discarded; a message of any other kind is kept (R95 step 3). -/
def dropRangeAdjust : Option Message → Option Message
  | some (.rangeAdjust _ _) => none
  | m => m

/-- Grants a stored hold as the exchange ends ranged (R31): HELD, the request cleared, any message discarded. -/
def State.grantHold (s : State) (id : Nat) : State :=
  (s.update id fun r => { r with state := .held, holdReq := false, message := none }).notifyHoldGranted id .ranging

/-- The fields ranging sets before the next state (R95 steps 1 to 3). -/
def rangedRecord (t : List ProfileEntry) (r : Record) : Record :=
  { r with profile := initialProfile t r, attempts := 0, message := dropRangeAdjust r.message }

/-- Completes the exchange of a ranged terminal (R95). -/
def State.ranged (s : State) (id : Nat) : State :=
  s.withRecord id fun r =>
    let s := s.update id (rangedRecord s.lm.profiles)
    if r.holdReq then s.grantHold id
    else (s.update id fun r => { r with state := .admitWait }).joinWaitList id

/-- Counts one attempt: the terminal stays in RANGING, with the new correction where there is one, or the exchange fails
(R96, R97). -/
def State.attempt (s : State) (id : Nat) (message : Option Message) : State :=
  s.withRecord id fun r =>
    if r.attempts < s.params.rangingMaxAttempts then
      s.update id fun r => { r with attempts := r.attempts + 1, message := message.or r.message }
    else s.lose .rangingFailed id

/-- The fields a GOOD measurement always updates (R94 stages 2 and 3). -/
def measuredRecord (k : Nat) (m : Measurement) (r : Record) : Record :=
  { averageInto k m.snr r with lastTiming := clampTiming m.timing, lastPower := clampPower m.power }

/-- One ranging measurement of a terminal in RANGING (R94). -/
def State.measure (s : State) (id : Nat) (m : Measurement) : State :=
  match m.outcome with
  | .good =>
    let s := s.update id (measuredRecord s.params.snrShift m)
    if inTolerance s.params (clampTiming m.timing) (clampPower m.power) then s.ranged id
    else s.attempt id (some (rangeAdjust s.params (clampTiming m.timing) (clampPower m.power)))
  | _ => s.attempt id none

/-- Takes the report that moved a terminal to RANGING as its first measurement (R93). -/
def State.firstMeasurement (s : State) (id : Nat) (m : Measurement) : State :=
  (s.update id fun r => { r with attempts := 0 }).measure id m

/-- A GOOD contention report carrying the address of a listed station (R99 to R103). -/
def State.contentionListed (s : State) (id : Nat) (m : Measurement) : State :=
  s.withRecord id fun r =>
    match r.state with
    | .lost =>
      (s.update id fun r => { r with holdOff := 0, outstanding := none, state := .ranging }).firstMeasurement id m
    | .polling =>
      (s.update id fun r => { r with holdOff := 0, outstanding := none, state := .ranging }).firstMeasurement id m
    | .ranging => (s.update id fun r => { r with outstanding := none }).measure id m
    | .held => s
    | .admitWait => (s.lose .rebooted id).firstMeasurement id m
    | .confirming => (s.lose .rebooted id).firstMeasurement id m
    | .inService => (s.lose .rebooted id).firstMeasurement id m
    | .fading => (s.lose .rebooted id).firstMeasurement id m
    | .shed => (s.lose .rebooted id).firstMeasurement id m

end Sys2Proof.Machine
end

