-- ==== Sys2Proof/Machine/Polling.lean ====
section
/-! DEFINITION. MP (chapter 5): the map-arrival operation (R73 to R82) and the judging of polls (R83 to R90). -/

namespace Sys2Proof.Machine

/-! ## Region check and strip (R74 to R76) -/

/-- Whether two runs of slots share a slot; an empty run shares none. -/
def slotsMeet (start length start' length' : Nat) : Bool :=
  0 < length && 0 < length' && start < start' + length' && start' < start + length

/-- Slots of the reserved region: P_min × poll length (R74). -/
def regionSize (p : Params) : Nat := p.pMin * p.pollLength

/-- Whether an entry overlaps the reserved region (R74). -/
def overlapsRegion (p : Params) (e : MapEntry) : Bool :=
  slotsMeet e.start.toNat e.length.toNat p.regionStart (regionSize p)

/-- Whether an entry that does not overlap the region is kept (R75). -/
def State.keepsEntry (s : State) (e : MapEntry) : Bool :=
  match e.kind.toNat with
  | 0 => ((s.stateOf e.id.toNat).map TState.committed).getD false
  | 1 => ((s.stateOf e.id.toNat).map TState.committed).getD false
  | 2 => false
  | _ => true

/-- The entries kept in stage 1, in the MAC's order (R74, R75). -/
def State.keptEntries (s : State) (entries : List MapEntry) : List MapEntry :=
  entries.filter fun e => !overlapsRegion s.params e && s.keepsEntry e

/-- The entries removed for their kind and terminal, whose spans are reclaimed (R75). -/
def State.strippedEntries (s : State) (entries : List MapEntry) : List MapEntry :=
  entries.filter fun e => !overlapsRegion s.params e && !s.keepsEntry e

/-- A reclaimed span: its start and its length, cut off at the end of the frame (R76). -/
def spanOf (e : MapEntry) : Nat × Nat := (e.start.toNat, min e.stop Config.frameSlots - e.start.toNat)

/-- Places a span in ascending order of start; among equal starts the one listed first stays first. -/
def insertSpan (x : Nat × Nat) : List (Nat × Nat) → List (Nat × Nat)
  | [] => [x]
  | y :: rest => if x.1 ≤ y.1 then x :: y :: rest else y :: insertSpan x rest

/-- The reclaimed spans of a map, by start, equal starts in map order (R76). -/
def State.reclaimedSpans (s : State) (entries : List MapEntry) : List (Nat × Nat) :=
  ((s.strippedEntries entries).map spanOf).foldr insertSpan []

/-- Reports the entries removed for overlap, where there are any (R74). -/
def State.reportRegion (s : State) (entries : List MapEntry) : State :=
  match entries.filter (overlapsRegion s.params) with
  | [] => s
  | e :: rest =>
    (s.notify .regionViolation none [(e :: rest).length, e.start.toNat]).setRegionViolationSeen

/-! ## Candidates (R77) -/

/-- Whether a record belongs to a group of candidates: no poll outstanding, and the group's own condition. -/
def candidate (own : Record → Bool) (r : Record) : Bool := r.outstanding.isNone && own r

/-- The candidates for a map, in three groups, each in priority order (R77). -/
def State.candidates (s : State) : List Nat :=
  s.inPriority (candidate fun r => r.state == .ranging) ++
    (s.inPriority (candidate fun r => r.state == .polling && due s.si.markerCount r.nextEligible) ++
      s.inPriority (candidate fun r => r.state == .shed && due s.si.markerCount r.keepaliveDue))

/-! ## Positions (R78 to R80) -/

/-- The reserved positions (R78). -/
def reservedPositions (p : Params) : List Nat := (List.range p.pMin).map fun i => p.regionStart + i * p.pollLength

/-- The pieces of poll-length slots that lie wholly within a span (R79). -/
def piecesOf (p : Params) (span : Nat × Nat) : List Nat :=
  (List.range (span.2 / p.pollLength)).map fun i => span.1 + i * p.pollLength

/-- Whether a piece gives a position: no slot in a kept entry or in a position already listed, and its start not after the
latest poll start (R79). -/
def pieceFree (p : Params) (kept : List MapEntry) (listed : List Nat) (piece : Nat) : Bool :=
  piece ≤ p.latestPollStart &&
    (kept.all fun e => !slotsMeet piece p.pollLength e.start.toNat e.length.toNat) &&
    listed.all fun q => !slotsMeet piece p.pollLength q p.pollLength

/-- Lists positions from pieces, up to P_extra_max, after the reserved ones (R79). -/
def extraPositions (p : Params) (kept : List MapEntry) (pieces : List Nat) : List Nat :=
  pieces.foldl (fun extra piece =>
    if extra.length < p.pExtraMax ∧ pieceFree p kept (reservedPositions p ++ extra) piece then extra ++ [piece]
    else extra) []

/-- All positions of a map, in the order in which they are used (R78, R79). -/
def State.positions (s : State) (entries : List MapEntry) : List Nat :=
  reservedPositions s.params ++
    extraPositions s.params (s.keptEntries entries) ((s.reclaimedSpans entries).flatMap (piecesOf s.params))

/-! ## Placement (R80, R81) -/

/-- Pairs candidates with usable positions in order; `room` is the number of entries the map can still take (R80, R81). -/
def pairPolls (latest : Nat) : List Nat → Nat → List Nat → List (Nat × Nat)
  | [], _, _ => []
  | position :: positions, room, ids =>
    match ids with
    | [] => []
    | id :: ids =>
      if room = 0 then []
      else if latest < position then pairPolls latest positions room (id :: ids)
      else (id, position) :: pairPolls latest positions (room - 1) ids

/-- The polls placed in a map: terminal and start slot (R81). -/
def State.placements (s : State) (entries : List MapEntry) : List (Nat × Nat) :=
  pairPolls s.params.latestPollStart (s.positions entries) (Config.mapEntries - (s.keptEntries entries).length)
    s.candidates

/-- The POLL entry of a placed poll (R81). -/
def pollEntry (p : Params) (poll : Nat × Nat) : MapEntry :=
  { id := byteOf poll.1, kind := 0x02, profile := 0x00, start := BitVec.ofNat 12 poll.2,
    length := BitVec.ofNat 12 p.pollLength }

/-- The entries of the edited map: those kept, then the polls (R73). -/
def State.editedEntries (s : State) (entries : List MapEntry) : List MapEntry :=
  s.keptEntries entries ++ (s.placements entries).map (pollEntry s.params)

/-- The bytes of a map with given entries (12.2, R1). -/
def mapBytes (frame : FrameNumber) (entries : List MapEntry) : List Byte :=
  itemBytes 0x02 (halfBytes frame ++ byteOf entries.length :: entries.flatMap MapEntry.bytes)

/-- Sets the outstanding polls of the terminals placed (R81). -/
def State.setOutstanding (s : State) (frame : FrameNumber) (ids : List Nat) : State :=
  s.updateAll fun id r => if id ∈ ids then { r with outstanding := some frame } else r

/-- The figures of the last map edited (R82). -/
def State.setMapFigures (s : State) (polls slots : Nat) : State :=
  { s with mp := { pollsPlaced := polls, reclaimedSlots := slots } }

/-- The map-arrival operation on a map that has passed its check, and the edited map sent on (R73). -/
def State.editMap (s : State) (frame : FrameNumber) (entries : List MapEntry) : State :=
  let edited := mapBytes frame (s.editedEntries entries)
  let placed := s.placements entries
  let reclaimed := ((s.reclaimedSpans entries).map (·.2)).sum
  (((s.reportRegion entries).setOutstanding frame (placed.map (·.1))).setMapFigures placed.length reclaimed).offerDs
    edited

/-! ## Judging polls (R83 to R87) -/

/-- The wait after the m-th consecutive miss: min(poll base × 2^min(m, 6), poll max) (R85). -/
def pollBackoff (p : Params) (m : Nat) : Nat := min (p.pollBase * 2 ^ min m 6) p.pollMax

/-- A MISSED poll of a POLLING terminal (R85). -/
def missedPoll (p : Params) (now : MarkerCount) (r : Record) : Record :=
  { r with
    misses := min 255 (r.misses + 1)
    pollMisses := r.pollMisses + 1
    nextEligible := after now (pollBackoff p (min 255 (r.misses + 1))) }

/-- Clears an outstanding poll (R83, R87, R89). -/
def clearPoll (r : Record) : Record := { r with outstanding := none }

/-- A judged poll of a POLLING terminal (R84, R85). -/
def State.judgePolling (s : State) (id : Nat) (m : Measurement) : State :=
  match m.outcome with
  | .good => (s.update id fun r => { r with state := .ranging }).firstMeasurement id m
  | .missed => s.update id (missedPoll s.params s.si.markerCount)
  | .crcBad => s.update id fun r => { r with nextEligible := after s.si.markerCount s.params.pollBase }

/-- A judged keepalive poll of a SHED terminal: the schedule, then LM's count (R86, R44). -/
def State.judgeKeepalive (select : Bool) (s : State) (id : Nat) (m : Measurement) : State :=
  State.countKeepalive select
    (s.update id fun r => { r with keepaliveDue := after s.si.markerCount s.params.keepaliveInterval }) id m.outcome m.snr

/-- A poll judged after its outstanding poll has been cleared, by the terminal's state (R83, R87). -/
def State.judgePoll (select : Bool) (s : State) (id : Nat) (m : Measurement) : State :=
  match s.stateOf id with
  | some .polling => s.judgePolling id m
  | some .ranging => s.measure id m
  | some .shed => State.judgeKeepalive select s id m
  | _ => s

/-- Whether a state's POLL reports are matched at all (R83). -/
def answersPolls : TState → Bool
  | .polling => true
  | .ranging => true
  | .shed => true
  | _ => false

/-- A POLL report in RUN: matched against the outstanding poll and judged, or ignored (R83). -/
def State.pollReport (select : Bool) (s : State) (id : Nat) (frame : FrameNumber) (m : Measurement) : State :=
  s.withRecord id fun r =>
    if answersPolls r.state ∧ r.outstanding = some frame then State.judgePoll select (s.update id clearPoll) id m else s

/-- Frame number f is n or earlier than n (R87). -/
def frameReached (n f : FrameNumber) : Bool := (n - f).toNat ≤ 32767

/-- The end of frame n for one terminal: an outstanding poll of it or earlier is cleared and judged MISSED (R87). -/
def State.endPoll (select : Bool) (n : FrameNumber) (s : State) (id : Nat) : State :=
  s.withRecord id fun r =>
    match r.outstanding with
    | none => s
    | some f => if frameReached n f then State.judgePoll select (s.update id clearPoll) id inferredMissed else s

/-- An end-of-frame report in RUN: every terminal in ascending ID order (R87). -/
def State.endFrame (select : Bool) (s : State) (n : FrameNumber) : State := s.ids.foldl (State.endPoll select n) s

/-- Cancels every outstanding poll without judging it (R10, R89). -/
def State.cancelPolls (s : State) : State := s.updateAll fun _ r => clearPoll r

end Sys2Proof.Machine
end

