-- ==== Sys2Proof/Machine/Budget.lean ====
section
/-! DEFINITION. AC, the fade level and the capacity budget (chapter 7). -/

namespace Sys2Proof.Machine

/-! ## Counting the outage (R107) -/

/-- The number of records that meet a condition. -/
def State.countRecords (s : State) (p : Record → Bool) : Nat := (s.tt.records.filter fun e => p e.2).length

/-- N, the number of records neither VACANT nor HELD (section 2.2, R107). -/
def State.provisionedCount (s : State) : Nat := s.countRecords fun r => r.state != .held

/-- O, the number of records in outage (section 2.2, R107). -/
def State.outageCount (s : State) : Nat := s.countRecords fun r => r.state.outage

/-- The outage permille of O and N (R107). -/
def permille (o n : Nat) : Nat := if n = 0 then 0 else 1000 * o / n

/-- The raw level of a permille: the number of thresholds it is at or above (R107). -/
def rawLevelOf (thresholds : List Nat) (pm : Nat) : Nat := (thresholds.filter fun th => th ≤ pm).length

/-- Computes the raw level over the records as they stand (R107). -/
def State.computeRaw (s : State) : State :=
  { s with ac := { s.ac with rawLevel := rawLevelOf s.ac.thresholds (permille s.outageCount s.provisionedCount) } }

/-! ## The held level (R110, R116) -/

/-- The held level and the hold counter after one marker (R110). -/
def heldAfterMarker (raw held counter levelHold : Nat) : Nat × Nat :=
  if held ≤ raw then (raw, 0)
  else if levelHold ≤ counter + 1 then (held - 1, 0)
  else (held, counter + 1)

/-- The held level and the hold counter after RUN entry: it rises and is never lowered (R116 step 3). -/
def heldAfterEntry (raw held counter : Nat) : Nat × Nat := if held ≤ raw then (raw, 0) else (held, counter)

/-- Sets the held level and the hold counter. -/
def State.setHeld (s : State) (h : Nat × Nat) : State := { s with ac := { s.ac with heldLevel := h.1, holdCounter := h.2 } }

/-- Updates the held level at a marker (R110, R115 step 4). -/
def State.holdLevel (s : State) : State :=
  s.setHeld (heldAfterMarker s.ac.rawLevel s.ac.heldLevel s.ac.holdCounter s.ac.levelHold)

/-! ## Storms (R111, R112) -/

/-- Sets the storm in force. -/
def State.setStorm (s : State) (st : Option Storm) : State := { s with ac := { s.ac with storm := st } }

/-- Counts a storm down at a marker; at 0 it ends, with STORM_EXPIRED (R112). -/
def State.countStorm (s : State) : State :=
  match s.ac.storm with
  | none => s
  | some st =>
    if st.remaining ≤ 1 then (s.setStorm none).notify .stormExpired none [st.level]
    else s.setStorm (some { st with remaining := st.remaining - 1 })

/-! ## Banks and the effective budget (R113, R114) -/

/-- Applies a staged set, where one is present (R113). -/
def State.applyStaged (s : State) : State :=
  match s.ac.staged with
  | none => s
  | some banks => { s with ac := { s.ac with banks := banks, staged := none } }

/-- The effective level: the held level, or the active storm's where it is higher (R114). -/
def effectiveLevel (held : Nat) (storm : Option Storm) : Nat :=
  match storm with
  | none => held
  | some st => max held st.level

/-- The effective budget of a level: max(0, bank - P_min × poll length) (R114). -/
def effectiveBudget (banks : List Nat) (p : Params) (level : Nat) : Nat := banks.getD level 0 - regionSize p

/-- The effective level the part's held level and storm give. -/
def State.levelNow (s : State) : Nat := effectiveLevel s.ac.heldLevel s.ac.storm

/-- Computes the effective level and B_eff (R114). -/
def State.computeBudget (s : State) : State :=
  { s with ac := { s.ac with effLevel := s.levelNow, bEff := effectiveBudget s.ac.banks s.params s.levelNow } }

/-- Computes the effective level and B_eff, and queues LEVEL_CHANGED where the effective level changed (R114). -/
def State.announceBudget (s : State) : State :=
  if s.levelNow = s.ac.effLevel then s.computeBudget
  else s.computeBudget.notify .levelChanged none
    [s.ac.effLevel, s.levelNow, effectiveBudget s.ac.banks s.params s.levelNow]

/-- The budget stage of a marker taken in RUN (R115). -/
def State.budgetStage (s : State) : State := s.applyStaged.countStorm.computeRaw.holdLevel.announceBudget

/-- Stage 3 of the RUN-entry operation (R116). -/
def State.entryLevel (s : State) : State :=
  let s := s.applyStaged.computeRaw
  (s.setHeld (heldAfterEntry s.ac.rawLevel s.ac.heldLevel s.ac.holdCounter)).announceBudget

/-- AC's budget part of a sector reset (R119). -/
def State.resetBudget (s : State) : State :=
  let s := s.applyStaged
  { s with ac := { s.ac with rawLevel := 0, heldLevel := 0, holdCounter := 0, storm := none } }.computeBudget

end Sys2Proof.Machine
end

