-- ==== Sys2Proof/Machine/Admission.lean ====
section
/-! DEFINITION. AC, admission and confirm timers (sections 8.2, 8.5, 8.6), and the costs recomputed at RUN entry (R123). -/

namespace Sys2Proof.Machine

/-! ## Confirm timers (R130, R131) -/

/-- The record of a confirm timer that retries the ADMIT (R130). -/
def retriedRecord (r : Record) : Record :=
  { r with admitTries := r.admitTries + 1, message := some .admitMsg, confirmTimer := none }

/-- An expired confirm timer: a retry while tries remain, a loss otherwise (R130, R131). -/
def State.expireConfirm (s : State) (id : Nat) : State :=
  s.withRecord id fun r =>
    if r.admitTries < s.params.admitTriesMax then s.update id retriedRecord else s.lose .confirmTimeout id

/-- A record with a running confirm timer at stage 1 of AC's marker operation (R130). -/
def State.confirmVisit (s : State) (id : Nat) : State :=
  s.withRecord id fun r =>
    match r.confirmTimer with
    | none => s
    | some n => if n ≤ 1 then s.expireConfirm id else s.update id fun r => { r with confirmTimer := some (n - 1) }

/-- Stage 1 of AC's marker operation, in ascending ID order (R129, R130). -/
def State.confirmStage (s : State) : State := s.ids.foldl State.confirmVisit s

/-! ## Preemption and admission (R132 to R135) -/

/-- Whether a terminal is preemptible for a head of a class: a sheddable terminal of a less important class (R133). -/
def preemptible (headClass : Nat) (r : Record) : Bool := sheddable r && headClass < r.cls.code

/-- The total admitted cost of the preemptible terminals (R133). -/
def State.preemptibleCost (s : State) (headClass : Nat) : Nat :=
  ((s.tt.records.filter fun e => preemptible headClass e.2).map (·.2.cost)).sum

/-- Sheds preemptible terminals in victim order until a cost fits, at most so many (R133). -/
def State.makeRoom (headClass cost : Nat) : Nat → State → State
  | 0, s => s
  | n + 1, s =>
    if s.ac.committedSum + cost ≤ s.ac.bEff then s
    else
      match s.victim? (preemptible headClass) with
      | none => s
      | some id => State.makeRoom headClass cost n (s.shedTerminal true id)

/-- The fields of an admitted record (R134 steps 1 to 4). -/
def admittedRecord (cost : Nat) (r : Record) : Record :=
  { r with state := .confirming, cost := cost, admitTries := 1, confirmTimer := none, message := some .admitMsg }

/-- Admits a terminal of a given cost (R134). -/
def State.admitTerminal (s : State) (id cost : Nat) : State :=
  s.withRecord id fun r =>
    let s := s.leaveWaitList id
    let s := s.update id (admittedRecord cost)
    let s := s.setSum (s.ac.committedSum + cost)
    s.notify .terminalAdmitted (some id) [r.profile, cost]

/-- The admission pass, with at most so many admissions left (R132, R133, R135). -/
def State.admissionPass : Nat → State → State
  | 0, s => s
  | n + 1, s =>
    match s.ac.waitList with
    | [] => s
    | id :: _ =>
      if id ∈ s.ac.shedNote then s
      else
        match s.record? id with
        | none => s
        | some r =>
          let cost := airtimeCost s.lm.profiles r.load r.profile
          if s.ac.committedSum + cost ≤ s.ac.bEff then State.admissionPass n (s.admitTerminal id cost)
          else if s.ac.committedSum + cost - s.ac.bEff ≤ s.preemptibleCost r.cls.code then
            State.admissionPass n ((State.makeRoom r.cls.code cost s.tt.records.length s).admitTerminal id cost)
          else s

/-- Stage 4 of AC's marker operation (R132). -/
def State.admissionStage (s : State) : State := State.admissionPass s.params.admitMax s

/-! ## RUN entry (R123) -/

/-- A committed record's cost on its assigned profile; any other record is not changed (R123). -/
def recosted (t : List ProfileEntry) (r : Record) : Record :=
  if r.state.committed then { r with cost := airtimeCost t r.load r.profile } else r

/-- The total admitted cost of the committed records (R122). -/
def committedTotal (records : List (Nat × Record)) : Nat :=
  ((records.filter fun e => e.2.state.committed).map (·.2.cost)).sum

/-- Stage 2 of the RUN-entry operation: admitted costs and the committed sum (R123). -/
def State.recomputeCosts (s : State) : State :=
  let s := s.updateAll fun _ => recosted s.lm.profiles
  s.setSum (committedTotal s.tt.records)

end Sys2Proof.Machine
end

