-- ==== Sys2Proof/Machine/Messages.lean ====
section
/-! DEFINITION. ME (chapter 9): filling the offered places of a control section with pending messages. -/

namespace Sys2Proof.Machine

/-- The record after its message has been emitted: the slot absent, and for an ADMIT the confirm timer started (R147). -/
def emittedRecord (confirmTimeout : Nat) (r : Record) : Record :=
  { r with
    confirmTimer := if r.message = some .admitMsg then some confirmTimeout else r.confirmTimer
    message := none }

/-- The number of messages a section may take: the offered places clamped to 0..32, and M (R145). -/
def State.messageLimit (s : State) (offered : Byte) : Nat := min (min offered.toNat 32) s.params.messageBudget

/-- Emits the messages of terminals in order, at most so many, while the section's length stays within its field; answers
the bytes appended (R145, R146, R147). -/
def State.emitMessages : List Nat → Nat → Nat → State → State × List Byte
  | [], _, _, s => (s, [])
  | _ :: _, 0, _, s => (s, [])
  | id :: ids, n + 1, length, s =>
    match (s.record? id).bind fun r => r.message.map (messageBytes id r) with
    | none => State.emitMessages ids (n + 1) length s
    | some bytes =>
      if Config.maxItemLength < length + bytes.length then (s, [])
      else
        let rest := State.emitMessages ids n (length + bytes.length) (s.update id (emittedRecord s.params.confirmTimeout))
        (rest.1, bytes ++ rest.2)

/-- The terminals with a pending message, in priority order (R145). -/
def State.messageOrder (s : State) : List Nat := s.inPriority fun r => r.message.isSome

/-- ME's filling of a control section in RUN, and the section sent on (R145, R1). -/
def State.fillSection (s : State) (offered : Byte) (messages : List Byte) : State :=
  let filled := State.emitMessages s.messageOrder (s.messageLimit offered) (DsItem.control offered messages).bytes.length s
  filled.1.offerDs (DsItem.control offered (messages ++ filled.2)).bytes

end Sys2Proof.Machine
end

