-- ==== Sys2Proof/Machine/Unlisted.lean ====
section
/-! DEFINITION. UQ (chapter 10): screening of unlisted stations and the Unlisted Queue. -/

namespace Sys2Proof.Machine

/-- Whether an address matches a filter (R151). -/
def Filter.matchesAddress (f : Filter) (addr : Address) : Bool := f.enabled && ((addr ^^^ f.code) &&& ~~~f.mask) == 0

/-- Whether UQ accepts an address (R152). -/
def State.accepts (s : State) (addr : Address) : Bool :=
  addr != 0 && (s.uq.acceptA.matchesAddress addr || s.uq.acceptB.matchesAddress addr) &&
    !s.uq.reject.matchesAddress addr

/-- Sets the Unlisted Queue. -/
def State.setUnlisted (s : State) (q : List UnlistedEntry) : State := { s with uq := { s.uq with queue := q } }

/-- Sets the overrun flag. -/
def State.setOverrun (s : State) (b : Bool) : State := { s with uq := { s.uq with overrun := b } }

/-- An entry updated in place by a further report (R154). -/
def updatedEntry (frame : FrameNumber) (m : Measurement) (e : UnlistedEntry) : UnlistedEntry :=
  { e with lastFrame := frame, snr := clampSnr m.snr, timing := clampTiming m.timing, power := clampPower m.power,
           seen := min 255 (e.seen + 1) }

/-- A new entry (R155). -/
def newEntry (addr : Address) (frame : FrameNumber) (m : Measurement) : UnlistedEntry :=
  { addr := addr, firstFrame := frame, lastFrame := frame, snr := clampSnr m.snr, timing := clampTiming m.timing,
    power := clampPower m.power, seen := 1 }

/-- An accepted report: update, append or overrun (R154, R155, R156). -/
def State.enqueueUnlisted (s : State) (addr : Address) (frame : FrameNumber) (m : Measurement) : State :=
  if s.uq.queue.any fun e => e.addr == addr then
    s.setUnlisted (s.uq.queue.map fun e => if e.addr = addr then updatedEntry frame m e else e)
  else if s.uq.queue.length < Config.unlistedPlaces then
    (s.setUnlisted (s.uq.queue ++ [newEntry addr frame m])).notify .unlistedArrived none
      [addr.toNat, s.uq.queue.length + 1, clampSnr m.snr]
  else if s.uq.overrun then s
  else (s.setOverrun true).notify .unlistedOverrun none [addr.toNat]

/-- A GOOD contention report from an unlisted address (R152). -/
def State.screen (s : State) (addr : Address) (frame : FrameNumber) (m : Measurement) : State :=
  if s.accepts addr then s.enqueueUnlisted addr frame m else s

/-- Removes the entry of an address that has been provisioned (R157). -/
def State.dropUnlisted (s : State) (addr : Address) : State := s.setUnlisted (s.uq.queue.filter fun e => e.addr ≠ addr)

/-- The ID a station address is mapped to (R22). -/
def State.stationId (s : State) (addr : Address) : Option Nat :=
  (s.tt.stationMap.find? fun e => e.2 == addr).map (·.1)

/-- A contention report in RUN, routed by the Station Map (R4, R22): RU for a listed address, UQ for another; a report that
is not GOOD reaches no block. -/
def State.contention (s : State) (b : Burst) : State :=
  match b.outcome, b.address with
  | .good, some addr =>
    match s.stationId addr with
    | some id => s.contentionListed id (measurementOf b)
    | none => s.screen addr b.frame (measurementOf b)
  | _, _ => s

end Sys2Proof.Machine
end

