-- ==== Sys2Proof/Machine/Terminals.lean ====
section
/-! DEFINITION. TT (chapter 2) and the commands that name one terminal: provisioning entries, UNLOAD, READ_TERMINAL, HOLD,
RELEASE, and OT's FORCE_LOSS and CANCEL_REENTRY (chapter 4). -/

namespace Sys2Proof.Machine

/-- What a command that completes answers: the status, the two figures of R164, and the result data. -/
structure Reply where
  status : Status
  failing : Nat := 0
  remaining : Nat := 0
  data : List Byte := []
deriving DecidableEq, Repr

/-- A reply of status OK with no result data. -/
def Reply.ok : Reply := { status := .ok }

/-- The ID checks of commands that name one terminal: BAD_ID, then VACANT; a refusal changes nothing. -/
def State.onRecord (s : State) (id : Byte) (f : Nat → Record → State × Reply) : State × Reply :=
  if id = 0 then (s, { status := .badId })
  else
    match s.record? id.toNat with
    | none => (s, { status := .vacant })
    | some r => f id.toNat r

/-! ## Provisioning (R23 to R26) -/

/-- Sets the Station Map. -/
def State.setStationMap (s : State) (m : List (Nat × Address)) : State := { s with tt := { s.tt with stationMap := m } }

/-- Whether an address stands in the Station Map under an ID other than this one (R23 check 3). -/
def State.mappedElsewhere (s : State) (addr : Address) (id : Nat) : Bool :=
  s.tt.stationMap.any fun e => e.2 == addr && e.1 != id

/-- Whether check 4 of R23 lets an ID be provisioned: in CONFIG always, else only VACANT or HELD. -/
def State.provisionable (s : State) (id : Nat) : Bool :=
  s.si.mode == .config || s.stateOf id == none || s.stateOf id == some .held

/-- The check of an entry's values (R23 check 2). -/
def entryValuesOk (e : ProvEntry) : Bool :=
  e.addr != 0 && (Cls.ofByte e.cls).isSome && e.load.toNat ≤ 4095 && e.ceiling.toNat ≤ 7

/-- The checks of one provisioning entry in their order; `none` when all pass (R23). -/
def State.entryFailure (s : State) (e : ProvEntry) : Option Status :=
  if e.id = 0 then some .badId
  else if entryValuesOk e = false then some .badValue
  else if s.mappedElsewhere e.addr e.id.toNat then some .duplicateAddress
  else if s.provisionable e.id.toNat = false then some .notHeld
  else none

/-- The class a checked entry names. -/
def entryClass (e : ProvEntry) : Cls := (Cls.ofByte e.cls).getD .low

/-- A record just created (R24). -/
def newRecord (now : MarkerCount) (e : ProvEntry) : Record :=
  { addr := e.addr, cls := entryClass e, load := e.load.toNat, ceiling := e.ceiling.toNat
    state := if e.flags.getLsbD 0 then .held else .polling
    fade := 0, avg := none, profile := 0, holdOff := 0, backoff := 0, probation := 0, outageStart := none
    cancelReq := false, misses := 0, nextEligible := now, outstanding := none, keepaliveDue := now, attempts := 0
    holdReq := false, lastTiming := 0, lastPower := 0, cost := 0, confirmTimer := none, admitTries := 0, message := none
    losses := 0, restorations := 0, sheds := 0, pollMisses := 0, lastReason := .none, lastOutage := 0 }

/-- An existing record with its provisioning fields replaced and its profile re-clamped (R25). -/
def reprovisioned (t : List ProfileEntry) (e : ProvEntry) (r : Record) : Record :=
  reclamp t { r with addr := e.addr, cls := entryClass e, load := e.load.toNat, ceiling := e.ceiling.toNat }

/-- Moves a listed terminal whose class has changed to the place its new class gives it (R25 step 2). -/
def State.reorderWaiting (s : State) (old : Cls) (id : Nat) : State :=
  if (s.record? id).map (·.cls) ≠ some old ∧ id ∈ s.ac.waitList then (s.leaveWaitList id).joinWaitList id else s

/-- Applies a provisioning entry that has passed its checks (R24, R25, R26, R157). -/
def State.applyEntry (s : State) (e : ProvEntry) : State :=
  let id := e.id.toNat
  let s :=
    match s.record? id with
    | none => s.setRecords (assocPut s.tt.records id (newRecord s.si.markerCount e))
    | some r => (s.update id (reprovisioned s.lm.profiles e)).reorderWaiting r.cls id
  (s.setStationMap (assocPut s.tt.stationMap id e.addr)).dropUnlisted e.addr

/-! ## UNLOAD (R27) -/

/-- Removes a record with its cost, its list place and its Station Map entry (R27 steps 1 to 5). -/
def State.removeRecord (s : State) (id : Nat) (r : Record) : State :=
  let s := if r.state.committed then s.setSum (s.ac.committedSum - r.cost) else s
  let s := s.leaveWaitList id
  let s := s.setStationMap (assocErase s.tt.stationMap id)
  s.setRecords (assocErase s.tt.records id)

/-- UNLOAD (R27). -/
def State.unloadCommand (s : State) (id : Byte) : State × Reply :=
  s.onRecord id fun id r =>
    if s.si.mode ≠ .config ∧ r.state ≠ .held then (s, { status := .notHeld })
    else (s.removeRecord id r, Reply.ok)

/-- READ_TERMINAL (R33). -/
def State.readTerminalCommand (s : State) (id : Byte) : State × Reply :=
  s.onRecord id fun id r => (s, { status := .ok, data := terminalResult r (s.waitPlace id) })

/-! ## HOLD and RELEASE (R28 to R30, R32) -/

/-- A record held from LOST, POLLING or ADMIT_WAIT (R28). -/
def heldFromReentry (r : Record) : Record :=
  { r with state := .held, outstanding := none, holdOff := 0, message := none }

/-- A record held from a committed state or SHED (R29). -/
def heldFromService (r : Record) : Record :=
  { r with state := .held, cost := 0, outstanding := none, message := some .suspend, confirmTimer := none, probation := 0 }

/-- HOLD's reply: OK, with the pending flag (R28 to R30, 12.5). -/
def holdReply (waits : Bool) : Reply := { status := .ok, data := [flagByte waits] }

/-- HOLD of a record in LOST, POLLING or ADMIT_WAIT (R28). -/
def State.holdReentry (s : State) (id : Nat) (r : Record) : State :=
  let s := if r.state.waiting then s.leaveWaitList id else s
  (s.update id heldFromReentry).notifyHoldGranted id r.state

/-- HOLD of a record in a committed state or SHED (R29). -/
def State.holdService (s : State) (id : Nat) (r : Record) : State :=
  let s := if r.state.committed then s.setSum (s.ac.committedSum - r.cost) else s
  let s := if r.state.waiting then s.leaveWaitList id else s
  (s.update id heldFromService).notifyHoldGranted id r.state

/-- HOLD (R28 to R30). -/
def State.holdCommand (s : State) (id : Byte) : State × Reply :=
  s.onRecord id fun id r =>
    match r.state with
    | .held => (s, holdReply false)
    | .ranging => (s.update id fun r => { r with holdReq := true }, holdReply true)
    | .lost => (s.holdReentry id r, holdReply false)
    | .polling => (s.holdReentry id r, holdReply false)
    | .admitWait => (s.holdReentry id r, holdReply false)
    | .confirming => (s.holdService id r, holdReply false)
    | .inService => (s.holdService id r, holdReply false)
    | .fading => (s.holdService id r, holdReply false)
    | .shed => (s.holdService id r, holdReply false)

/-- A HELD record released to POLLING (R32). -/
def releasedRecord (now : MarkerCount) (r : Record) : Record := { r with state := .polling, misses := 0, nextEligible := now }

/-- RELEASE (R32). -/
def State.releaseCommand (s : State) (id : Byte) : State × Reply :=
  s.onRecord id fun id r =>
    if r.state = .held then (s.update id (releasedRecord s.si.markerCount), Reply.ok)
    else if r.state = .ranging ∧ r.holdReq = true then (s.update id fun r => { r with holdReq := false }, Reply.ok)
    else (s, { status := .wrongState })

/-! ## FORCE_LOSS and CANCEL_REENTRY (R68, R69) -/

/-- FORCE_LOSS (R68). -/
def State.forceLossCommand (s : State) (id : Byte) : State × Reply :=
  if s.si.mode ≠ .run then (s, { status := .badMode })
  else
    s.onRecord id fun id r =>
      if r.state = .held then (s, { status := .wrongState }) else (s.lose .admin id, Reply.ok)

/-- CANCEL_REENTRY (R69). -/
def State.cancelReentryCommand (s : State) (id : Byte) : State × Reply :=
  if s.si.mode ≠ .run then (s, { status := .badMode })
  else s.onRecord id fun id _ => (s.update id fun r => { r with cancelReq := true }, Reply.ok)

/-! ## Records in a sector reset (R35, R36) -/

/-- A record that is not HELD after a sector reset (R35). -/
def resetRecord (r : Record) : Record :=
  { r with
    state := .polling, fade := 0, avg := none, profile := 0, holdOff := 0, backoff := 0, probation := 0
    outageStart := none, cancelReq := false, misses := 0, nextEligible := 0, outstanding := none, keepaliveDue := 0
    attempts := 0, holdReq := false, lastTiming := 0, lastPower := 0, cost := 0, confirmTimer := none, admitTries := 0
    message := none, lastReason := .sectorReset }

/-- A HELD record after a sector reset (R36). -/
def resetHeldRecord (r : Record) : Record := { r with message := none, cancelReq := false, outageStart := none }

/-- TT's part of a sector reset (R35, R36). -/
def State.resetRecords (s : State) : State :=
  s.updateAll fun _ r => if r.state = .held then resetHeldRecord r else resetRecord r

end Sys2Proof.Machine
end

