-- ==== Sys2Proof/Machine/Marker.lean ====
section
/-! DEFINITION. The marker in OT and AC (R14, R64, R129): seven stages, in an interleaving the spec leaves open, and the
mode changes SI makes (R10, R15, R16). -/

namespace Sys2Proof.Machine

/-- The stages of the two marker operations (R64, R129). -/
inductive MarkerStage where
  | cancel
  | holdOff
  | probation
  | confirm
  | budget
  | shedCheck
  | admission
deriving DecidableEq, Repr

/-- OT's stages, in their order (R64). -/
def otStages : List MarkerStage := [.cancel, .holdOff, .probation]

/-- AC's stages, in their order (R129). -/
def acStages : List MarkerStage := [.confirm, .budget, .shedCheck, .admission]

/-- Interleaves two sequences, keeping the order of each: `true` takes the next of the first, `false` of the second. When
the picks or one sequence run out, the rest follows (log 1). -/
def interleave {α : Type} : List Bool → List α → List α → List α
  | true :: picks, x :: xs, ys => x :: interleave picks xs ys
  | false :: picks, xs, y :: ys => y :: interleave picks xs ys
  | _, xs, ys => xs ++ ys

/-- One stage. `rank` orders cancel resolution (log 2). -/
def runStage (rank : Nat → Nat) (s : State) : MarkerStage → State
  | .cancel => s.cancelStage rank
  | .holdOff => s.holdOffStage
  | .probation => s.probationStage
  | .confirm => s.confirmStage
  | .budget => s.budgetStage
  | .shedCheck => s.shedCheck true
  | .admission => s.admissionStage

/-- The notes of a marker operation are cleared when it ends (R64, R135). -/
def State.clearNotes (s : State) : State := { s with ot := { lostNow := [] }, ac := { s.ac with shedNote := [] } }

/-- OT's and AC's reaction to a marker taken in RUN, interleaved by `picks` (R14, R64, R129). The reaction is carried out
whole: that no upstream item is taken between two of its stages (R137) is the model's choice (log 25). -/
def State.react (s : State) (picks : List Bool) (rank : Nat → Nat) : State :=
  ((interleave picks otStages acStages).foldl (runStage rank) s).clearNotes

/-- Records a frame number as the current one (R14, R15). -/
def State.recordFrame (s : State) (frame : FrameNumber) : State := { s with si := { s.si with frameNumber := frame } }

/-- SI's own handling of a marker in RUN after the frame number: the marker count and the watchdog (R14). -/
def State.countMarker (s : State) : State :=
  { s with si := { s.si with markerCount := s.si.markerCount + 1, watchdog := some s.params.watchdogTime } }

/-- Moves on to the next free choices (logs 1, 2 and 6). -/
def State.nextRace (s : State) : State := { s with raceTick := s.raceTick + 1 }

/-- A marker taken in RUN, whose frame number SI has recorded (R14). -/
def State.markerInRun (s : State) : State :=
  ((s.countMarker).react (Config.markerPicks s.raceTick) (Config.cancelRank s.raceTick)).nextRace

/-- The effects of leaving RUN for another mode: the watchdog disarmed, every outstanding poll cancelled (R10). -/
def State.leaveRun (s : State) (m : Mode) : State :=
  ({ s with si := { s.si with mode := m, watchdog := none } }).cancelPolls

/-- A frame marker, by the mode at its arrival (R3, R14, R15). -/
def State.takeMarker (s : State) (frame : FrameNumber) : State :=
  match s.si.mode with
  | .config => s.recordFrame frame
  | .run => (s.recordFrame frame).markerInRun
  | .coasting => (((s.setMode .run).recordFrame frame).notify .frameRegained none []).markerInRun

/-- Expiry of the marker watchdog, which takes place only while it is armed in RUN (R16; log 5). -/
def State.watchdogExpires (s : State) : State :=
  if s.si.mode = .run ∧ s.si.watchdog.isSome then
    ((s.leaveRun .coasting).notify .frameLost none []).setFrameLostSeen
  else s

/-! ## The visits at which a countdown ends (log 4) -/

/-- Whether a record's hold-off ends at this visit (R65). -/
def holdOffEnds (r : Record) : Bool := r.state == .lost && r.holdOff == 0

/-- Whether a record's probation ends at this visit (R66). -/
def probationEnds (r : Record) : Bool := r.state.committed && r.probation == 1

/-- Whether a record's confirm timer expires at this visit (R130). -/
def confirmEnds (r : Record) : Bool := r.confirmTimer == some 1

/-- Whether the level hold ends at this marker (R110). -/
def levelHoldEnds (ac : Ac) : Bool := ac.rawLevel < ac.heldLevel && ac.levelHold ≤ ac.holdCounter + 1

/-- Whether the storm ends at this marker (R112). -/
def stormEnds (ac : Ac) : Bool :=
  match ac.storm with
  | some st => st.remaining ≤ 1
  | none => false

/-- An expiry takes place in RUN alone, where its condition holds; otherwise nothing changes (log 4, log 5). -/
def State.ifEnds (s : State) (ends : Bool) (s' : State) : State := if s.si.mode = .run ∧ ends = true then s' else s

/-- HOLD_OFF_EXPIRY of one record (R65). -/
def State.expireHoldOff (s : State) (id : Nat) : State :=
  s.withRecord id fun r => s.ifEnds (holdOffEnds r) (s.update id (holdOffVisit s.si.markerCount))

/-- PROBATION_EXPIRY of one record (R66). -/
def State.expireProbation (s : State) (id : Nat) : State :=
  s.withRecord id fun r => s.ifEnds (probationEnds r) (s.update id probationVisit)

/-- CONFIRM_TIMER_EXPIRY of one record (R130, R131). -/
def State.expireConfirmTimer (s : State) (id : Nat) : State :=
  s.withRecord id fun r => s.ifEnds (confirmEnds r) (s.confirmVisit id)

/-- STORM_EXPIRY (R112). The effective level and B_eff stay as they are until the next marker's budget stage: the model's
choice (log 4). -/
def State.expireStorm (s : State) : State := s.ifEnds (stormEnds s.ac) s.countStorm

/-- LEVEL_HOLD_EXPIRY (R110). It compares the raw level of the last level computation, and leaves the effective level and
B_eff to the next marker: the model's choice (log 4). -/
def State.expireLevelHold (s : State) : State := s.ifEnds (levelHoldEnds s.ac) s.holdLevel

end Sys2Proof.Machine
end

