-- ==== Sys2Proof/Machine/Management.lean ====
section
/-! DEFINITION. MU (chapter 11) and SI's operations it calls (sections 1.5 to 1.7): checks of a cell, the commands, the
commands in flight and their progress, the sector reset, responses and the emission of notices. -/

namespace Sys2Proof.Machine

/-! ## Table loads -/

/-- A Profile Table entry as LOAD_PROFILES carries it (12.4). -/
def profileOfWire (w : ProfileWire) : ProfileEntry :=
  { enabled := w.flags.getLsbD 0, threshold := w.threshold.toInt, capacity := w.capacity.toNat, overhead := w.overhead.toNat }

/-- The range check of one entry (R48 check 1). -/
def profileInRange (e : ProfileEntry) : Bool :=
  -40 ≤ e.threshold && e.threshold ≤ 160 && 4 ≤ e.capacity && e.capacity ≤ 240 && e.overhead ≤ 3

/-- Each T greater than the one before it and each C at least the one before it (R48 check 3). -/
def ascending : List ProfileEntry → Bool
  | a :: b :: rest => a.threshold < b.threshold && a.capacity ≤ b.capacity && ascending (b :: rest)
  | _ => true

/-- The checks of a Profile Table in their order; `none` when all pass (R48). -/
def profileFailure (t : List ProfileEntry) : Option Status :=
  if t.all profileInRange = false then some .badValue
  else if (profileAt t 0).enabled = false then some .badProfileOrder
  else if ascending (t.filter (·.enabled)) = false then some .badProfileOrder
  else none

/-- LOAD_PROFILES at its arrival: refused, or in flight with no reply yet (R48, R165). -/
def State.loadProfilesCommand (s : State) (tag : Byte) (w : List ProfileWire) : State × Option Reply :=
  if s.si.mode ≠ .config then (s, some { status := .badMode })
  else
    match profileFailure (w.map profileOfWire) with
    | some status => (s, some { status := status })
    | none => (s.setInFlight (some (.loadProfiles tag (w.map profileOfWire) 0)), none)

/-- Puts a Profile Table in force and re-clamps the records above `reclamped` (R49). -/
def State.installProfiles (s : State) (t : List ProfileEntry) (reclamped : Nat) : State :=
  ({ s with lm := { profiles := t } }).updateAll fun id r => if reclamped < id then reclamp t r else r

/-- LOAD_BUDGET (R113). -/
def State.loadBudgetCommand (s : State) (banks : List Half) : State × Reply :=
  if banks.all (fun b => b.toNat ≤ 4095) then
    ({ s with ac := { s.ac with staged := some (banks.map BitVec.toNat) } }, Reply.ok)
  else (s, { status := .badValue })

/-- Each value at or above the one before it (R109 check 2). -/
def nondecreasing : List Nat → Bool
  | a :: b :: rest => a ≤ b && nondecreasing (b :: rest)
  | _ => true

/-- The checks of a Level Table (R109). -/
def levelTableOk (ths : List Nat) (levelHold : Nat) : Bool :=
  ths.all (fun th => 1 ≤ th && th ≤ 1001) && 1 ≤ levelHold && levelHold ≤ 255 && nondecreasing ths

/-- LOAD_LEVEL_TABLE (R109). -/
def State.loadLevelTableCommand (s : State) (ths : List Half) (levelHold : Byte) : State × Reply :=
  if s.si.mode ≠ .config then (s, { status := .badMode })
  else if levelTableOk (ths.map BitVec.toNat) levelHold.toNat then
    ({ s with ac := { s.ac with thresholds := ths.map BitVec.toNat, levelHold := levelHold.toNat } }, Reply.ok)
  else (s, { status := .badValue })

/-- A filter as LOAD_FILTERS carries it, its enabled flag 0 or 1 (R161). -/
def filterOfWire (w : FilterWire) : Option Filter :=
  match w.enabled.toNat with
  | 0 => some { code := w.code, mask := w.mask, enabled := false }
  | 1 => some { code := w.code, mask := w.mask, enabled := true }
  | _ => none

/-- LOAD_FILTERS (R161). -/
def State.loadFiltersCommand (s : State) (a b r : FilterWire) : State × Reply :=
  if s.si.mode ≠ .config then (s, { status := .badMode })
  else
    match filterOfWire a, filterOfWire b, filterOfWire r with
    | some a, some b, some r => ({ s with uq := { s.uq with acceptA := a, acceptB := b, reject := r } }, Reply.ok)
    | _, _, _ => (s, { status := .badValue })

/-! ## Sector parameters (R171) -/

/-- The ranges of the 27 parameters, in index order (section 11.6). -/
def paramRanges : List (Nat × Nat) :=
  [(1, 255), (0, 127), (0, 127), (0, 65535), (0, 7), (0, 4), (0, 63), (0, 255), (1, 64), (1, 1023), (0, 16), (1, 16),
   (0, 32), (0, 4095), (0, 4095), (0, 255), (0, 63), (1, 2047), (1, 127), (1, 63), (1, 255), (1, 7), (8, 1023), (1, 32),
   (1, 32), (1, 8), (100, 65535)]

/-- The parameters of a list in index order. -/
def paramsOf (v : List Nat) : Params :=
  { warningLimit := v.getD 0 0, fadeExit := v.getD 1 0, probationStart := v.getD 2 0, probationLength := v.getD 3 0,
    fadeProfile := v.getD 4 0, snrShift := v.getD 5 0, upgradeHysteresis := v.getD 6 0, holdOffBase := v.getD 7 0,
    pollBase := v.getD 8 0, pollMax := v.getD 9 0, pMin := v.getD 10 0, pollLength := v.getD 11 0,
    pExtraMax := v.getD 12 0, regionStart := v.getD 13 0, latestPollStart := v.getD 14 0, timingTolerance := v.getD 15 0,
    powerTolerance := v.getD 16 0, maxTimingStep := v.getD 17 0, maxPowerStep := v.getD 18 0,
    rangingMaxAttempts := v.getD 19 0, confirmTimeout := v.getD 20 0, admitTriesMax := v.getD 21 0,
    keepaliveInterval := v.getD 22 0, admitMax := v.getD 23 0, messageBudget := v.getD 24 0,
    noticesPerReport := v.getD 25 0, watchdogTime := v.getD 26 0 }

/-- The failing field of a set of parameters, in the order of R171's checks; `none` when all pass. -/
def failingField (v : List Nat) : Option Nat :=
  match (v.zip paramRanges).findIdx? fun x => !(x.2.1 ≤ x.1 && x.1 ≤ x.2.2) with
  | some i => some (i + 1)
  | none =>
    if (paramsOf v).pollMax < (paramsOf v).pollBase then some 10
    else if Config.frameSlots < (paramsOf v).regionStart + regionSize (paramsOf v) then some 14
    else none

/-- LOAD_SECTOR_PARAMETERS (R171). -/
def State.loadSectorParametersCommand (s : State) (values : List Half) : State × Reply :=
  if s.si.mode ≠ .config then (s, { status := .badMode })
  else
    match failingField (values.map BitVec.toNat) with
    | some i => (s, { status := .badValue, failing := i })
    | none => ({ s with params := paramsOf (values.map BitVec.toNat) }, Reply.ok)

/-! ## STORM, the Unlisted Queue, READ_SECTOR, the notice mask -/

/-- STORM (R111). -/
def State.stormCommand (s : State) (level : Byte) : State × Reply :=
  if level = 0 then (s.setStorm none, Reply.ok)
  else (s.setStorm (some { level := min 7 level.toNat, remaining := 256 }), Reply.ok)

/-- UNLISTED_READ (R158). -/
def State.unlistedReadCommand (s : State) : State × Reply :=
  match s.uq.queue with
  | [] => (s, { status := .empty })
  | e :: rest => (s, { status := .ok, data := unlistedResult e (e :: rest).length s.uq.overrun })

/-- UNLISTED_RELEASE (R159). -/
def State.unlistedReleaseCommand (s : State) : State × Reply :=
  match s.uq.queue with
  | [] => (s, { status := .empty })
  | e :: rest => (s.setUnlisted rest, { status := .ok, data := addressBytes e.addr ++ [byteOf rest.length] })

/-- UNLISTED_CLEAR_OVERRUN (R160). -/
def State.unlistedClearOverrunCommand (s : State) : State × Reply := (s.setOverrun false, Reply.ok)

/-- The states of a provisioned record, in state code order (12.5). -/
def stateOrder : List TState :=
  [.held, .lost, .polling, .ranging, .admitWait, .confirming, .inService, .fading, .shed]

/-- The number of records in each of the ten values of the state field, VACANT first (R174). -/
def State.stateCounts (s : State) : List Nat :=
  (Config.maxId - s.tt.records.length) :: stateOrder.map fun st => s.countRecords fun r => r.state == st

/-- The READ_SECTOR result, 41 bytes (R174, 12.5). -/
def State.sectorResult (s : State) : List Byte :=
  byteOf s.si.mode.code :: (wordBytes s.si.markerCount ++ (halfBytes s.si.frameNumber ++ (s.stateCounts.map byteOf ++
    byteOf s.provisionedCount :: byteOf s.outageCount :: (wordOf s.ac.committedSum ++ (halfOf s.ac.bEff ++
    byteOf s.ac.rawLevel :: byteOf s.ac.heldLevel :: byteOf s.ac.effLevel ::
    byteOf ((s.ac.storm.map (·.level)).getD 0) :: (halfOf ((s.ac.storm.map (·.remaining)).getD 0) ++
    flagByte s.ac.staged.isSome :: byteOf s.uq.queue.length :: flagByte s.uq.overrun :: byteOf s.mp.pollsPlaced ::
    (wordOf s.mp.reclaimedSlots ++ [byteOf s.mu.notices.length, bitsByte s.si.sticky.bits])))))))

/-- READ_SECTOR, with its acknowledge option (R174, R175). R17 gives the outcome of an event between the report and the
clearing; the model makes the two one step, in which no event falls, as R175 and 95_what_each_step_holds.md have it: its
choice (log 26). -/
def State.readSectorCommand (s : State) (acknowledge : Byte) : State × Reply :=
  match acknowledge.toNat with
  | 0 => (s, { status := .ok, data := s.sectorResult })
  | 1 => (s.clearSticky, { status := .ok, data := s.sectorResult })
  | _ => (s, { status := .badValue })

/-- SET_NOTICE_MASK (R178). -/
def State.setNoticeMaskCommand (s : State) (enables : List Byte) : State × Reply :=
  if enables.all fun e => e.toNat ≤ 1 then
    ({ s with mu := { s.mu with mask := enables.map (· == 1) } }, { status := .ok, data := s.mu.mask.map flagByte })
  else (s, { status := .badValue })

/-! ## Commands in flight: LOAD_TERMINALS, LOAD_PROFILES, RUN entry (R12, R49, R169) -/

/-- Places a reply as the response of a command (R164). -/
def State.reply (s : State) (tag code : Byte) (r : Reply) : State :=
  s.placeResponse tag code r.status r.failing r.remaining r.data

/-- Ends the command in flight and places its response (R165). -/
def State.complete (s : State) (tag code : Byte) (r : Reply) : State := (s.setInFlight none).reply tag code r

/-- Takes the next provisioning entry of the LOAD_TERMINALS in flight (R169); without one nothing changes (log 5). -/
def State.nextEntry (s : State) : State :=
  match s.mu.inFlight with
  | some (.loadTerminals tag entries applied) =>
    match entries[applied]? with
    | none => s
    | some e =>
      match s.entryFailure e with
      | some status =>
        s.complete tag 0x02 { status := status, failing := applied + 1, remaining := entries.length - applied }
      | none =>
        let s := s.applyEntry e
        if applied + 1 = entries.length then s.complete tag 0x02 Reply.ok
        else s.setInFlight (some (.loadTerminals tag entries (applied + 1)))
  | _ => s

/-- Puts the table of the LOAD_PROFILES in flight in force and completes it (R49); without one nothing changes (log 5). -/
def State.reclampAll (s : State) : State :=
  match s.mu.inFlight with
  | some (.loadProfiles tag t reclamped) => (s.installProfiles t reclamped).complete tag 0x09 Reply.ok
  | _ => s

/-- One stage of the RUN-entry operation, 1 to 4 (R12). -/
def State.entryStage (s : State) : Nat → State
  | 1 => s.updateAll fun _ => reclamp s.lm.profiles
  | 2 => s.recomputeCosts
  | 3 => s.entryLevel
  | 4 => s.shedCheck false
  | _ => s

/-- Stage 5: the mode becomes RUN, the watchdog is armed, the response is placed (R12). -/
def State.enterRun (s : State) (tag : Byte) : State :=
  ({ s with si := { s.si with mode := .run, watchdog := some s.params.watchdogTime } }).complete tag 0x01 Reply.ok

/-- The next stage of the RUN-entry operation in flight, where it is one up to `last` (R12, log 11). -/
def State.nextEntryStage (last : Nat) (s : State) : State :=
  match s.mu.inFlight with
  | some (.runEntry tag stage) =>
    if last ≤ stage then s
    else if 4 ≤ stage then s.enterRun tag
    else (s.entryStage (stage + 1)).setInFlight (some (.runEntry tag (stage + 1)))
  | _ => s

/-- Repeats an operation. -/
def repeatOp (f : State → State) : Nat → State → State
  | 0, s => s
  | n + 1, s => repeatOp f n (f s)

/-- Carries the RUN-entry operation on through stage `last`; five stages at most (R12, log 11). -/
def State.carryRunEntry (s : State) (last : Nat) : State := repeatOp (State.nextEntryStage last) 5 s

/-- SET_MODE (R11). -/
def State.setModeCommand (s : State) (tag requested : Byte) : State × Option Reply :=
  match requested.toNat, s.si.mode with
  | 0, .config => (s, some Reply.ok)
  | 0, .run => (s.leaveRun .config, some Reply.ok)
  | 0, .coasting => (s.setMode .config, some Reply.ok)
  | 1, .config => (s.setInFlight (some (.runEntry tag 0)), none)
  | 1, .run => (s, some Reply.ok)
  | 1, .coasting => (s, some { status := .badMode })
  | _, _ => (s, some { status := .badValue })

/-! ## SECTOR_RESET (R13, R167, R172) -/

/-- SI's part of a sector reset (R13). -/
def State.resetSi (s : State) : State :=
  let s := if s.si.mode = .run then s.leaveRun .config else s
  { s with si := { s.si with mode := .config, markerCount := 0, watchdog := none, sticky := Sticky.clear } }

/-- AC's part of a sector reset (R140, R119). -/
def State.resetAdmission (s : State) : State :=
  ({ s with ac := { s.ac with committedSum := 0, waitList := [], shedNote := [] } }).resetBudget

/-- MU's Notice Queue in a sector reset (R176). -/
def State.resetNotices (s : State) : State := { s with mu := { s.mu with notices := [], gapPending := false } }

/-- One step of the sector reset, 1 to 6 (R172). -/
def State.resetStep (s : State) : Nat → State
  | 1 => s.resetSi
  | 2 => s.resetRecords
  | 3 => s.resetAdmission
  | 4 => s.setMapFigures 0 0
  | 5 => (s.setUnlisted []).setOverrun false
  | 6 => s.resetNotices
  | _ => s

/-- The next step of the SECTOR_RESET in flight; step 7 places its response (R172). -/
def State.nextResetStep (s : State) : State :=
  match s.mu.inFlight with
  | some (.sectorReset tag step) =>
    if 6 ≤ step then s.complete tag 0x14 Reply.ok
    else (s.resetStep (step + 1)).setInFlight (some (.sectorReset tag (step + 1)))
  | _ => s

/-- Ends the command in flight for a SECTOR_RESET, with its response ABORTED (R167, R169, R49, R13). -/
def State.abortInFlight (s : State) : State :=
  match s.mu.inFlight with
  | some (.loadTerminals tag entries applied) =>
    s.complete tag 0x02 { status := .aborted, failing := applied + 1, remaining := entries.length - applied }
  | some (.loadProfiles tag t reclamped) => (s.installProfiles t reclamped).complete tag 0x09 { status := .aborted }
  | some (.runEntry tag _) => s.complete tag 0x01 { status := .aborted }
  | _ => s

/-- SECTOR_RESET: a second one is answered BUSY; otherwise the command in flight is aborted, the reset is carried
out through step `through` of its seven, and at least through SI's step 1, which comes as the cell is taken (R13, R167, R172;
log 12). -/
def State.sectorResetCommand (s : State) (tag : Byte) (through : Nat) : State × Option Reply :=
  match s.mu.inFlight with
  | some (.sectorReset _ _) => (s, some { status := .busy })
  | _ =>
    (repeatOp State.nextResetStep (max 1 through) (s.abortInFlight.setInFlight (some (.sectorReset tag 0))), none)

/-! ## Carrying out a command (R163, R164, R168) -/

/-- A command that completes at arrival. -/
def atArrival (x : State × Reply) : State × Option Reply := (x.1, some x.2)

/-- Carries out a command by its own rules; a reply is missing where the command takes time or has placed its own (R168). -/
def State.perform (s : State) (tag : Byte) : Command → State × Option Reply
  | .setMode v => s.setModeCommand tag v
  | .loadTerminals es => (s.setInFlight (some (.loadTerminals tag es 0)), none)
  | .unload id => atArrival (s.unloadCommand id)
  | .readTerminal id => atArrival (s.readTerminalCommand id)
  | .hold id => atArrival (s.holdCommand id)
  | .release id => atArrival (s.releaseCommand id)
  | .forceLoss id => atArrival (s.forceLossCommand id)
  | .cancelReentry id => atArrival (s.cancelReentryCommand id)
  | .loadProfiles t => s.loadProfilesCommand tag t
  | .loadBudget b => atArrival (s.loadBudgetCommand b)
  | .loadLevelTable ths h => atArrival (s.loadLevelTableCommand ths h)
  | .loadFilters a b r => atArrival (s.loadFiltersCommand a b r)
  | .loadSectorParameters v => atArrival (s.loadSectorParametersCommand v)
  | .storm l => atArrival (s.stormCommand l)
  | .unlistedRead => atArrival s.unlistedReadCommand
  | .unlistedRelease => atArrival s.unlistedReleaseCommand
  | .unlistedClearOverrun => atArrival s.unlistedClearOverrunCommand
  | .readSector a => atArrival (s.readSectorCommand a)
  | .setNoticeMask m => atArrival (s.setNoticeMaskCommand m)
  | .sectorReset through => s.sectorResetCommand tag through

/-- Carries out a command and places its reply, where it has one, in its reserved place (R164). -/
def State.carryOut (s : State) (tag : Byte) (c : Command) : State :=
  match s.perform tag c with
  | (s, some r) => s.reply tag c.code r
  | (s, none) => s

/-- Whether a cell of this code meets BUSY (R163 check 2). -/
def State.busyFor (s : State) (code : Byte) : Bool := s.mu.inFlight.isSome && code != 0x14

/-- A cell of one known command arrives whole, its place reserved: checks 2 and 4, then the command (R163). -/
def State.takeCommand (s : State) (tag : Byte) (c : Command) : State :=
  if s.busyFor c.code then s.reply tag c.code { status := .busy }
  else if c.lengthOk = false then s.reply tag c.code { status := .badLength }
  else s.carryOut tag c

/-- A management cell arrives whole, its place reserved: the checks of R163 in their order. -/
def State.takeCell (s : State) (payload : List Byte) : State :=
  match payload with
  | code :: tag :: params =>
    if s.busyFor code then s.reply tag code { status := .busy }
    else
      match readCommand code params with
      | .unknown => s.reply tag code { status := .unknownCommand }
      | .badLength => s.reply tag code { status := .badLength }
      | .command c => s.carryOut tag c
  | _ => s.releasePlace

/-! ## Emission of notices (R179) -/

/-- The number of notices moved at an emission: the smallest of the report's E, the notices queued and the free places
(R179). -/
def State.emissionCount (e : Nat) (s : State) : Nat := min e (min s.mu.notices.length s.freePlaces)

/-- Moves notices from the head of the Notice Queue to the tail of the Insertion Queue, at most a report's E of them
(R179). -/
def State.emitNotices (e : Nat) (s : State) : State :=
  { s with
    insertion := { s.insertion with
      cells := s.insertion.cells ++ (s.mu.notices.take (s.emissionCount e)).map .notice }
    mu := { s.mu with notices := s.mu.notices.drop (s.emissionCount e) } }

/-- Carries out the emission an end-of-frame report owes, where one is owed, with the E in force when that report was sent:
a new E applies from the next report (R6, R171, R179, log 7). -/
def State.settleEmission (s : State) : State :=
  match s.paths.emissionDue with
  | some e => State.emitNotices e { s with paths := { s.paths with emissionDue := none } }
  | none => s

end Sys2Proof.Machine
end

