-- ==== Sys2Proof/Machine/Streams.lean ====
section
/-! DEFINITION. SI (sections 1.1 to 1.4): the arrival of items on both paths, their routing by kind and mode, the reserved
place of a management cell, and the boundary on US-out. -/

namespace Sys2Proof.Machine

/-! ## DS-in -/

/-- Sets the state of a management cell's header. -/
def State.setHeader (s : State) (h : HeaderState) : State := { s with paths := { s.paths with header := h } }

/-- Takes the header of a management cell: a place is reserved, or DS-in is held until one is free (R7). -/
def State.takeHeader (s : State) : State :=
  if 0 < s.freePlaces then s.reservePlace.setHeader .reserved else s.setHeader .waiting

/-- A byte marked item-start cuts a management cell whose header has been taken: the cell is discarded and its place
released (R2, R163). -/
def State.cutHeader (s : State) : State :=
  if s.paths.header = .reserved then (s.setHeader .none).releasePlace else s

/-- An item waits on DS-in, behind what waits there (R1, R7). -/
def State.holdDs (s : State) (i : DsItem) : State :=
  { s with paths := { s.paths with dsHeld := s.paths.dsHeld ++ [i] } }

/-- A map in RUN: the structural check, then MP (R8, R73). -/
def State.takeMapInRun (s : State) (frame : FrameNumber) (count : Byte) (body : List Byte) : State :=
  if Config.mapEntries < count.toNat ∨ body.length ≠ 6 * count.toNat then
    ((s.notify .mapMalformed none [count.toNat]).setMapMalformedSeen).offerDs (DsItem.map frame count body).bytes
  else s.editMap frame (readMapEntries body)

/-- Whether a cut item is a management cell: its first byte is that kind's code (R2, log 16). -/
def cutCell (bytes : List Byte) : Bool := bytes.head? == some 0x04

/-- A whole management cell, or one of a known command: its header is taken first where it has not been, and the cell is
handed to MU once its place is reserved (R7, log 9). -/
def State.takeReserved (s : State) (i : DsItem) (handle : State → State) : State :=
  let s := if s.paths.header = .reserved then s else s.takeHeader
  if s.paths.header = .reserved then handle (s.setHeader .none) else s.holdDs i

/-- An item arrives on DS-in while DS-in is not held (R1, R2, R3). -/
def State.routeDs (s : State) (i : DsItem) : State :=
  match i with
  | .marker frame tail => (s.cutHeader.takeMarker frame).offerDs (DsItem.marker frame tail).bytes
  | .map frame count body =>
    if s.si.mode = .run then s.cutHeader.takeMapInRun frame count body
    else s.cutHeader.offerDs (DsItem.map frame count body).bytes
  | .control offered messages =>
    if s.si.mode = .run then s.cutHeader.fillSection offered messages
    else s.cutHeader.offerDs (DsItem.control offered messages).bytes
  | .cellHeader => s.cutHeader.takeHeader
  | .cell payload => s.takeReserved i fun s => s.takeCell payload
  | .command tag c => s.takeReserved i fun s => s.takeCommand tag c
  | .raw bytes => s.cutHeader.offerDs bytes
  | .cut bytes =>
    if cutCell bytes = false then s.cutHeader.offerDs bytes
    else if bytes.length < 3 then s.cutHeader
    else s.takeReserved i State.releasePlace

/-- An item is offered on DS-in: while a header waits for a place, or an item waits to be sent on DS-out, it waits behind it
(R1, R7). -/
def State.arriveDs (s : State) (i : DsItem) : State :=
  if s.paths.header = .waiting ∨ s.paths.dsItem.isSome then s.holdDs i else s.routeDs i

/-- DS-in goes on: the items held on it are taken in their order, until one of them holds it again (R1, R7, log 8). -/
def State.resumeDs (s : State) : State :=
  s.paths.dsHeld.foldl State.arriveDs { s with paths := { s.paths with dsHeld := [] } }

/-- DS-in goes on when a place has become free: the waiting header takes it, and then the items behind it are taken (R7). -/
def State.wakeDs (s : State) : State :=
  if s.paths.header = .waiting ∧ 0 < s.freePlaces then (s.reservePlace.setHeader .reserved).resumeDs else s

/-- Sets the level of DS-out's ready input. -/
def State.setDsOutReady (s : State) (level : Bool) : State := { s with paths := { s.paths with dsOutReady := level } }

/-- No downstream item waits any more. -/
def State.clearDsItem (s : State) : State := { s with paths := { s.paths with dsItem := none } }

/-- The modulator sets DS-out's ready input: when it is high, the item that waits is sent, and DS-in goes on (R1, log 6). -/
def State.driveDsOut (s : State) (level : Bool) : State :=
  match level, s.paths.dsItem with
  | true, some bytes => (((s.setDsOutReady true).clearDsItem).sendDs bytes).resumeDs
  | level, _ => s.setDsOutReady level

/-! ## US-in -/

/-- An item waits on US-in (R1). -/
def State.holdUs (s : State) (i : UsItem) : State :=
  { s with paths := { s.paths with usHeld := s.paths.usHeld ++ [i] } }

/-- An upstream item taken whole is handled by its kind and the mode, and forwarded or consumed (R1, R4). `select` is the
free value of log 3. -/
def State.routeUs (select : Bool) (s : State) (i : UsItem) : State :=
  match i with
  | .burst kind b =>
    if s.si.mode = .run then
      (s.grantReport b.id.toNat b.outcome b.snr.toInt).readyUs (UsItem.burst kind b).bytes false
    else s.readyUs (UsItem.burst kind b).bytes false
  | .poll b =>
    if s.si.mode = .run then State.pollReport select s b.id.toNat b.frame (measurementOf b)
    else s.readyUs (UsItem.poll b).bytes false
  | .contention b =>
    if s.si.mode = .run ∧ (b.outcome = .good → b.address.isSome) then s.contention b
    else s.readyUs (UsItem.contention b).bytes false
  | .endOfFrame frame tail =>
    if s.si.mode = .run then (State.endFrame select s frame).readyUs (UsItem.endOfFrame frame tail).bytes true
    else s.readyUs (UsItem.endOfFrame frame tail).bytes true
  | .raw bytes => s.readyUs bytes false
  | .cut bytes => s.readyUs bytes false

/-- An item is offered on US-in: while the path holds an item it waits; an emission owed takes place before it is taken
(R1, R6, log 7). -/
def State.arriveUs (select : Bool) (s : State) (i : UsItem) : State :=
  if s.paths.usItem.isSome then s.holdUs i else State.routeUs select s.settleEmission i

/-! ## US-out (R6) -/

/-- Sends bytes on US-out. -/
def State.sendUs (s : State) (bytes : List Byte) : State :=
  { s with paths := { s.paths with usOut := s.paths.usOut ++ [bytes] } }

/-- The upstream path is free again: what waits on US-in is taken in order until one item holds the path (R1, log 8). -/
def State.wakeUs (select : Bool) (s : State) : State :=
  let held := s.paths.usHeld
  held.foldl (State.arriveUs select) { s with paths := { s.paths with usHeld := [] } }

/-- The upstream path is free again after an item has left it; an end-of-frame report owes an emission with the E in force as
it is sent (R6, R171, R179, log 7). -/
def State.clearUs (s : State) (eof : Bool) : State :=
  { s with paths := { s.paths with
      usItem := none, emissionDue := if eof then some s.params.noticesPerReport else none } }

/-- An item boundary on US-out: the head cell of the Insertion Queue is sent, or else the ready forwarded item, whole (R6).
An emission owed comes first (log 7). -/
def State.boundary (select : Bool) (s : State) : State :=
  let s := s.settleEmission
  match s.insertion.cells with
  | cell :: rest =>
    (({ s with insertion := { s.insertion with cells := rest } }).sendUs cell.bytes).wakeDs
  | [] =>
    match s.paths.usItem with
    | none => s
    | some item =>
      State.wakeUs select ((s.clearUs item.eof).sendUs item.bytes)

/-! ## RESET_N (R18) -/

/-- Everything at its power-on value; the queue of commands, the record of the ports and the race counter are the model's
own and go on, and DS-out's ready input is the modulator's (R18, log 15). -/
def State.powerOn (s : State) : State :=
  { State.reset with
    pending := s.pending
    raceTick := s.raceTick
    paths := { State.reset.paths with
      dsOutReady := s.paths.dsOutReady, dsOut := s.paths.dsOut, usOut := s.paths.usOut } }

/-- RESET_N falls: the ports stop, and every item partly through the part is lost (R18, log 15). -/
def State.resetFalls (s : State) : State :=
  let s := s.cutHeader
  { s with paths := { s.paths with resetLow := true, header := .none, dsItem := none, dsHeld := [], usItem := none,
                                   usHeld := [], emissionDue := none } }

/-- While RESET_N is low the part takes nothing and presents nothing (R18, log 15). -/
def State.whenUp (s : State) (s' : State) : State := if s.paths.resetLow then s else s'

/-- An item arrives on DS-in, RESET_N being high. -/
def State.receiveDs (s : State) (i : DsItem) : State := s.whenUp (s.arriveDs i)

/-- An item arrives on US-in, RESET_N being high. -/
def State.receiveUs (s : State) (i : UsItem) : State := s.whenUp (State.arriveUs Config.selectAfterFailedKeepalive s i)

/-! ## Idling -/

/-- What the part does of its own accord when no command waits: a paused sector reset goes on by one step, and DS-out's ready
input takes the level the modulator gives it (logs 6, 12, 13). -/
def State.idle (s : State) : State :=
  if s.paths.resetLow then s else (s.nextResetStep.driveDsOut (Config.dsOutReady s.raceTick)).nextRace

end Sys2Proof.Machine
end

