-- ==== Sys2Proof/Machine/Commands.lean ====
section
/-! DEFINITION. The meanings of the hub controller's commands: each row is the arrival of a cell of
exactly that command (R163, log 10). -/

namespace Sys2Proof.Machine

/-- SET_MODE with CONFIG requested (R11). -/
def execSetModeConfig (tag : Byte) (s : State) : Host.Outcome State Fault Refusal :=
  .next (s.receiveDs (.command tag (.setMode 0x00)))

/-- SET_MODE with RUN requested (R11, R12). -/
def execSetModeRun (tag : Byte) (s : State) : Host.Outcome State Fault Refusal :=
  .next (s.receiveDs (.command tag (.setMode 0x01)))

/-- LOAD_TERMINALS becomes the command in flight (R169). -/
def execLoadTerminals (tag : Byte) (entries : List ProvEntry) (s : State) : Host.Outcome State Fault Refusal :=
  .next (s.receiveDs (.command tag (.loadTerminals entries)))

/-- UNLOAD (R27). -/
def execUnload (tag : Byte) (id : Byte) (s : State) : Host.Outcome State Fault Refusal :=
  .next (s.receiveDs (.command tag (.unload id)))

/-- READ_TERMINAL (R33). -/
def execReadTerminal (tag : Byte) (id : Byte) (s : State) : Host.Outcome State Fault Refusal :=
  .next (s.receiveDs (.command tag (.readTerminal id)))

/-- HOLD (R28 to R30). -/
def execHold (tag : Byte) (id : Byte) (s : State) : Host.Outcome State Fault Refusal :=
  .next (s.receiveDs (.command tag (.hold id)))

/-- RELEASE (R32). -/
def execRelease (tag : Byte) (id : Byte) (s : State) : Host.Outcome State Fault Refusal :=
  .next (s.receiveDs (.command tag (.release id)))

/-- FORCE_LOSS (R68). -/
def execForceLoss (tag : Byte) (id : Byte) (s : State) : Host.Outcome State Fault Refusal :=
  .next (s.receiveDs (.command tag (.forceLoss id)))

/-- CANCEL_REENTRY (R69). -/
def execCancelReentry (tag : Byte) (id : Byte) (s : State) : Host.Outcome State Fault Refusal :=
  .next (s.receiveDs (.command tag (.cancelReentry id)))

/-- LOAD_PROFILES: checked, and in flight when it passes (R48). -/
def execLoadProfiles (tag : Byte) (table : List ProfileWire) (s : State) : Host.Outcome State Fault Refusal :=
  .next (s.receiveDs (.command tag (.loadProfiles table)))

/-- LOAD_BUDGET (R113). -/
def execLoadBudget (tag : Byte) (banks : List Half) (s : State) : Host.Outcome State Fault Refusal :=
  .next (s.receiveDs (.command tag (.loadBudget banks)))

/-- LOAD_LEVEL_TABLE (R109). -/
def execLoadLevelTable (tag : Byte) (thresholds : List Half) (levelHold : Byte) (s : State) :
    Host.Outcome State Fault Refusal :=
  .next (s.receiveDs (.command tag (.loadLevelTable thresholds levelHold)))

/-- LOAD_FILTERS (R161). -/
def execLoadFilters (tag : Byte) (acceptA acceptB reject : FilterWire) (s : State) :
    Host.Outcome State Fault Refusal :=
  .next (s.receiveDs (.command tag (.loadFilters acceptA acceptB reject)))

/-- LOAD_SECTOR_PARAMETERS (R171). -/
def execLoadSectorParameters (tag : Byte) (values : List Half) (s : State) : Host.Outcome State Fault Refusal :=
  .next (s.receiveDs (.command tag (.loadSectorParameters values)))

/-- STORM (R111). -/
def execStorm (tag : Byte) (level : Byte) (s : State) : Host.Outcome State Fault Refusal :=
  .next (s.receiveDs (.command tag (.storm level)))

/-- UNLISTED_READ (R158). -/
def execUnlistedRead (tag : Byte) (s : State) : Host.Outcome State Fault Refusal :=
  .next (s.receiveDs (.command tag .unlistedRead))

/-- UNLISTED_RELEASE (R159). -/
def execUnlistedRelease (tag : Byte) (s : State) : Host.Outcome State Fault Refusal :=
  .next (s.receiveDs (.command tag .unlistedRelease))

/-- UNLISTED_CLEAR_OVERRUN (R160). -/
def execUnlistedClearOverrun (tag : Byte) (s : State) : Host.Outcome State Fault Refusal :=
  .next (s.receiveDs (.command tag .unlistedClearOverrun))

/-- READ_SECTOR (R174, R175). -/
def execReadSector (tag : Byte) (acknowledge : Byte) (s : State) : Host.Outcome State Fault Refusal :=
  .next (s.receiveDs (.command tag (.readSector acknowledge)))

/-- SET_NOTICE_MASK (R178). -/
def execSetNoticeMask (tag : Byte) (enables : List Byte) (s : State) : Host.Outcome State Fault Refusal :=
  .next (s.receiveDs (.command tag (.setNoticeMask enables)))

/-- SECTOR_RESET: through step `through` of its seven in one go, 7 completes it (R13, R167, R172, log 12). -/
def execSectorReset (tag : Byte) (through : Nat) (s : State) : Host.Outcome State Fault Refusal :=
  .next (s.receiveDs (.command tag (.sectorReset through)))

end Sys2Proof.Machine
end

