-- ==== Sys2Proof/Machine/Events.lean ====
section
/-! DEFINITION. The meanings of the events that are no item: boundaries and emission on US-out, expiries, the
progress of a command in flight, and RESET_N. -/

namespace Sys2Proof.Machine

/-- MARKER_WATCHDOG_EXPIRY (R16). -/
def execMarkerWatchdogExpiry (s : State) : Host.Outcome State Fault Refusal :=
  .next (s.whenUp s.watchdogExpires)

/-- RUN_ENTRY_OPERATION: the operation in flight is carried on through stage `last`; 5 completes it (R12, log 11). -/
def execRunEntryOperation (last : Nat) (s : State) : Host.Outcome State Fault Refusal :=
  .next (s.whenUp (s.carryRunEntry last))

/-- PROVISIONING_ENTRY: the next entry of the LOAD_TERMINALS in flight is checked and applied (R23 to R26, R169, R170). -/
def execProvisioningEntry (s : State) : Host.Outcome State Fault Refusal :=
  .next (s.whenUp s.nextEntry)

/-- LOAD_PROFILES_RECLAMP: the table in flight replaces the one in force, every record is re-clamped, OK (R49). -/
def execLoadProfilesReclamp (s : State) : Host.Outcome State Fault Refusal :=
  .next (s.whenUp s.reclampAll)

/-- NOTICE_EMISSION: the emission an end-of-frame report owes (R6, R179, log 7). -/
def execNoticeEmission (s : State) : Host.Outcome State Fault Refusal :=
  .next (s.whenUp s.settleEmission)

/-- US_OUT_BOUNDARY: the head cell of the Insertion Queue is sent, or else the ready item (R6). -/
def execUsOutBoundary (s : State) : Host.Outcome State Fault Refusal :=
  .next (s.whenUp (State.boundary Config.selectAfterFailedKeepalive s))

/-- HOLD_OFF_EXPIRY of one record (R65, log 4). -/
def execHoldOffExpiry (id : Byte) (s : State) : Host.Outcome State Fault Refusal :=
  .next (s.whenUp (s.expireHoldOff id.toNat))

/-- PROBATION_EXPIRY of one record (R66, log 4). -/
def execProbationExpiry (id : Byte) (s : State) : Host.Outcome State Fault Refusal :=
  .next (s.whenUp (s.expireProbation id.toNat))

/-- CONFIRM_TIMER_EXPIRY of one record (R130, R131, log 4). -/
def execConfirmTimerExpiry (id : Byte) (s : State) : Host.Outcome State Fault Refusal :=
  .next (s.whenUp (s.expireConfirmTimer id.toNat))

/-- STORM_EXPIRY (R112, log 4). -/
def execStormExpiry (s : State) : Host.Outcome State Fault Refusal :=
  .next (s.whenUp s.expireStorm)

/-- LEVEL_HOLD_EXPIRY (R110, log 4). -/
def execLevelHoldExpiry (s : State) : Host.Outcome State Fault Refusal :=
  .next (s.whenUp s.expireLevelHold)

/-- RESET_N_FALL: the ports stop and every item partly through the part is lost (R18, log 15). -/
def execResetNFall (s : State) : Host.Outcome State Fault Refusal :=
  .next s.resetFalls

end Sys2Proof.Machine
end

