-- ==== Sys2Proof/Machine/Items.lean ====
section
/-! DEFINITION. The meanings of the items and of power-on: what arrives on DS-in and US-in (R1 to R4), one
definition for each row. -/

namespace Sys2Proof.Machine

/-- POWER_ON: RESET_N rises and every block is at its power-on values (R18). -/
def execPowerOn (s : State) : Host.Outcome State Fault Refusal :=
  .next s.powerOn

/-- ITEM_CUT: a cut management cell is discarded, any other cut item is forwarded unchanged (R2). -/
def execItemCut (path : Path) (bytes : List Byte) (s : State) : Host.Outcome State Fault Refusal :=
  .next <|
    match path with
    | .downstream => s.receiveDs (.cut bytes)
    | .upstream => s.receiveUs (.cut bytes)

/-- UNROUTED_ITEM: a short item, or one of unknown or other-path kind, is forwarded unchanged (R3, R4, R9, R182, R183). -/
def execUnroutedItem (path : Path) (bytes : List Byte) (s : State) : Host.Outcome State Fault Refusal :=
  .next <|
    match path with
    | .downstream => s.receiveDs (.raw bytes)
    | .upstream => s.receiveUs (.raw bytes)

/-- FRAME_MARKER: by the mode, recorded, counted, or returning the part to RUN (R3, R14, R15). -/
def execFrameMarker (frame : FrameNumber) (tail : List Byte) (s : State) : Host.Outcome State Fault Refusal :=
  .next (s.receiveDs (.marker frame tail))

/-- MAP: in RUN checked and edited, else forwarded unedited (R3, R8, R73). -/
def execMap (frame : FrameNumber) (count : Byte) (body : List Byte) (s : State) : Host.Outcome State Fault Refusal :=
  .next (s.receiveDs (.map frame count body))

/-- CONTROL_SECTION: in RUN filled with pending messages, else forwarded unchanged (R3, R145). -/
def execControlSection (offered : Byte) (messages : List Byte) (s : State) : Host.Outcome State Fault Refusal :=
  .next (s.receiveDs (.control offered messages))

/-- MGMT_CELL_HEADER: a place is reserved for the response, or DS-in is held until one is free (R7). -/
def execMgmtCellHeader (s : State) : Host.Outcome State Fault Refusal :=
  .next (s.receiveDs .cellHeader)

/-- MANAGEMENT_CELL: the checks of R163 and the command the cell carries. -/
def execManagementCell (payload : List Byte) (s : State) : Host.Outcome State Fault Refusal :=
  .next (s.receiveDs (.cell payload))

/-- BURST_REPORT: a DATA or REPORT burst report (R4, R43). -/
def execBurstReport (kind : GrantKind) (b : Burst) (s : State) : Host.Outcome State Fault Refusal :=
  .next (s.receiveUs (.burst kind b))

/-- POLL_REPORT (R4, R83). -/
def execPollReport (b : Burst) (s : State) : Host.Outcome State Fault Refusal :=
  .next (s.receiveUs (.poll b))

/-- CONTENTION_REPORT_LISTED: routed by the Station Map at its arrival (R22, R99, log 17). -/
def execContentionReportListed (b : Burst) (s : State) : Host.Outcome State Fault Refusal :=
  .next (s.receiveUs (.contention b))

/-- CONTENTION_REPORT_UNLISTED: routed by the Station Map at its arrival (R22, R152, log 17). -/
def execContentionReportUnlisted (b : Burst) (s : State) : Host.Outcome State Fault Refusal :=
  .next (s.receiveUs (.contention b))

/-- END_OF_FRAME_REPORT (R4, R87). -/
def execEndOfFrameReport (frame : FrameNumber) (tail : List Byte) (s : State) : Host.Outcome State Fault Refusal :=
  .next (s.receiveUs (.endOfFrame frame tail))

end Sys2Proof.Machine
end

