-- ==== Sys2Proof/Machine/Dispatch.lean ====
section
/-! DEFINITION. One arm for each command: the direct call of its meaning. -/

namespace Sys2Proof.Machine

open Sys2Proof

def exec (i : Instr) (s : State) : Host.Outcome State Fault Refusal :=
  match i with
  | .powerOn => Sys2Proof.Machine.execPowerOn s
  | .itemCut path bytes => Sys2Proof.Machine.execItemCut path bytes s
  | .unroutedItem path bytes => Sys2Proof.Machine.execUnroutedItem path bytes s
  | .frameMarker frame tail => Sys2Proof.Machine.execFrameMarker frame tail s
  | .markerWatchdogExpiry => Sys2Proof.Machine.execMarkerWatchdogExpiry s
  | .map frame count body => Sys2Proof.Machine.execMap frame count body s
  | .controlSection offered messages => Sys2Proof.Machine.execControlSection offered messages s
  | .mgmtCellHeader => Sys2Proof.Machine.execMgmtCellHeader s
  | .managementCell payload => Sys2Proof.Machine.execManagementCell payload s
  | .setModeConfig tag => Sys2Proof.Machine.execSetModeConfig tag s
  | .setModeRun tag => Sys2Proof.Machine.execSetModeRun tag s
  | .runEntryOperation last => Sys2Proof.Machine.execRunEntryOperation last s
  | .loadTerminals tag entries => Sys2Proof.Machine.execLoadTerminals tag entries s
  | .provisioningEntry => Sys2Proof.Machine.execProvisioningEntry s
  | .unload tag id => Sys2Proof.Machine.execUnload tag id s
  | .readTerminal tag id => Sys2Proof.Machine.execReadTerminal tag id s
  | .hold tag id => Sys2Proof.Machine.execHold tag id s
  | .release tag id => Sys2Proof.Machine.execRelease tag id s
  | .forceLoss tag id => Sys2Proof.Machine.execForceLoss tag id s
  | .cancelReentry tag id => Sys2Proof.Machine.execCancelReentry tag id s
  | .loadProfiles tag table => Sys2Proof.Machine.execLoadProfiles tag table s
  | .loadProfilesReclamp => Sys2Proof.Machine.execLoadProfilesReclamp s
  | .loadBudget tag banks => Sys2Proof.Machine.execLoadBudget tag banks s
  | .loadLevelTable tag thresholds levelHold => Sys2Proof.Machine.execLoadLevelTable tag thresholds levelHold s
  | .loadFilters tag acceptA acceptB reject => Sys2Proof.Machine.execLoadFilters tag acceptA acceptB reject s
  | .loadSectorParameters tag values => Sys2Proof.Machine.execLoadSectorParameters tag values s
  | .storm tag level => Sys2Proof.Machine.execStorm tag level s
  | .unlistedRead tag => Sys2Proof.Machine.execUnlistedRead tag s
  | .unlistedRelease tag => Sys2Proof.Machine.execUnlistedRelease tag s
  | .unlistedClearOverrun tag => Sys2Proof.Machine.execUnlistedClearOverrun tag s
  | .readSector tag acknowledge => Sys2Proof.Machine.execReadSector tag acknowledge s
  | .setNoticeMask tag enables => Sys2Proof.Machine.execSetNoticeMask tag enables s
  | .sectorReset tag through => Sys2Proof.Machine.execSectorReset tag through s
  | .burstReport kind b => Sys2Proof.Machine.execBurstReport kind b s
  | .pollReport b => Sys2Proof.Machine.execPollReport b s
  | .contentionReportListed b => Sys2Proof.Machine.execContentionReportListed b s
  | .contentionReportUnlisted b => Sys2Proof.Machine.execContentionReportUnlisted b s
  | .endOfFrameReport frame tail => Sys2Proof.Machine.execEndOfFrameReport frame tail s
  | .noticeEmission => Sys2Proof.Machine.execNoticeEmission s
  | .usOutBoundary => Sys2Proof.Machine.execUsOutBoundary s
  | .holdOffExpiry id => Sys2Proof.Machine.execHoldOffExpiry id s
  | .probationExpiry id => Sys2Proof.Machine.execProbationExpiry id s
  | .confirmTimerExpiry id => Sys2Proof.Machine.execConfirmTimerExpiry id s
  | .stormExpiry => Sys2Proof.Machine.execStormExpiry s
  | .levelHoldExpiry => Sys2Proof.Machine.execLevelHoldExpiry s
  | .resetNFall => Sys2Proof.Machine.execResetNFall s

end Sys2Proof.Machine
end

