-- ==== Sys2Proof/Machine/Step.lean ====
section
/-! DEFINITION. One step of the block: the command at the front of the queue, or an idle step where the queue is empty. -/

namespace Sys2Proof.Machine

/-- Takes the command at the front of the queue and carries it out with the queue's rest; on an empty queue the part idles,
but for a paused sector reset and the level of DS-out's ready input (logs 6, 12, 13). -/
def step (s : State) : Host.Outcome State Fault Refusal :=
  match s.pending with
  | [] => .next s.idle
  | c :: rest => exec c { s with pending := rest }

/-- Puts the command a word spells at the front of the queue; no word spells one (log 24). -/
def State.withFetchWord (s : State) (nbits w : Nat) : State :=
  match decodeTableWord nbits w with
  | some c => { s with pending := c :: s.pending }
  | none => s

end Sys2Proof.Machine
end

