-- ==== Sys2Proof/Safety.lean ====
section
/-! DEFINITION. What counts as a sound state of the part, in the terms the statements use: the laws of the device that its
rules say hold, each a decidable condition on State. -/

namespace Sys2Proof

/-- The item a command offers on DS-in, where it offers one. -/
def Instr.dsItem? : Instr → Option DsItem
  | .itemCut .downstream bytes => some (.cut bytes)
  | .unroutedItem .downstream bytes => some (.raw bytes)
  | .frameMarker frame tail => some (.marker frame tail)
  | .map frame count body => some (.map frame count body)
  | .controlSection offered messages => some (.control offered messages)
  | .mgmtCellHeader => some .cellHeader
  | .managementCell payload => some (.cell payload)
  | .setModeConfig tag => some (.command tag (.setMode 0x00))
  | .setModeRun tag => some (.command tag (.setMode 0x01))
  | .loadTerminals tag es => some (.command tag (.loadTerminals es))
  | .unload tag id => some (.command tag (.unload id))
  | .readTerminal tag id => some (.command tag (.readTerminal id))
  | .hold tag id => some (.command tag (.hold id))
  | .release tag id => some (.command tag (.release id))
  | .forceLoss tag id => some (.command tag (.forceLoss id))
  | .cancelReentry tag id => some (.command tag (.cancelReentry id))
  | .loadProfiles tag t => some (.command tag (.loadProfiles t))
  | .loadBudget tag b => some (.command tag (.loadBudget b))
  | .loadLevelTable tag ths h => some (.command tag (.loadLevelTable ths h))
  | .loadFilters tag a b r => some (.command tag (.loadFilters a b r))
  | .loadSectorParameters tag v => some (.command tag (.loadSectorParameters v))
  | .storm tag l => some (.command tag (.storm l))
  | .unlistedRead tag => some (.command tag .unlistedRead)
  | .unlistedRelease tag => some (.command tag .unlistedRelease)
  | .unlistedClearOverrun tag => some (.command tag .unlistedClearOverrun)
  | .readSector tag a => some (.command tag (.readSector a))
  | .setNoticeMask tag m => some (.command tag (.setNoticeMask m))
  | .sectorReset tag through => some (.command tag (.sectorReset through))
  | _ => none

/-- The item a command offers on US-in, where it offers one. -/
def Instr.usItem? : Instr → Option UsItem
  | .itemCut .upstream bytes => some (.cut bytes)
  | .unroutedItem .upstream bytes => some (.raw bytes)
  | .burstReport kind b => some (.burst kind b)
  | .pollReport b => some (.poll b)
  | .contentionReportListed b => some (.contention b)
  | .contentionReportUnlisted b => some (.contention b)
  | .endOfFrameReport frame tail => some (.endOfFrame frame tail)
  | _ => none

end Sys2Proof

namespace Sys2Proof.Machine

/-- Records stand by ascending ID, each an ID 1..255 (R19). -/
abbrev State.recordsSound (s : State) : Prop :=
  s.ids.Pairwise (· < ·) ∧ ∀ id ∈ s.ids, 1 ≤ id ∧ id ≤ Config.maxId

/-- The Station Map holds exactly one entry for each provisioned record, carrying its address, and no address twice (R22). -/
abbrev State.stationMapSound (s : State) : Prop :=
  s.tt.stationMap = s.tt.records.map (fun e => (e.1, e.2.addr)) ∧ (s.tt.stationMap.map (·.2)).Nodup

/-- The sector reset in flight has reset the records (step 2) and not yet AC (step 3), so the accounts do not yet agree
with the records (R172, log 12). -/
def State.accountsSuspended (s : State) : Bool :=
  match s.mu.inFlight with
  | some (.sectorReset _ step) => step == 2
  | _ => false

/-- The committed sum is the sum of the admitted costs of the committed records, and every other record's admitted cost
is 0 (R122). -/
abbrev State.accountsSound (s : State) : Prop :=
  s.ac.committedSum = committedTotal s.tt.records ∧
    ∀ e ∈ s.tt.records, e.2.state.committed = false → e.2.cost = 0

/-- The wait list holds every terminal in ADMIT_WAIT or SHED exactly once and no other, in priority order (R124). -/
abbrev State.waitListSound (s : State) : Prop :=
  s.ac.waitList.Pairwise (fun a b => s.outranks a b = true) ∧
    (∀ id ∈ s.ac.waitList, (s.stateOf id).map TState.waiting = some true) ∧
    ∀ e ∈ s.tt.records, e.2.state.waiting = true → e.1 ∈ s.ac.waitList

/-- Every committed record's admitted cost is its cost on its assigned profile (R121). -/
abbrev State.costsCurrent (s : State) : Prop :=
  ∀ e ∈ s.tt.records, e.2.state.committed = true → e.2.cost = airtimeCost s.lm.profiles e.2.load e.2.profile

/-- The command in flight fits the mode: LOAD_PROFILES and the RUN-entry operation run in CONFIG, and a RUN entry past stage
2 has current costs, past stage 4 a committed sum within B_eff (R12, R48, R165). A sector reset has
carried out step 1 and stands in CONFIG, and after step 2 no record is committed or waits (R13, R35, R36, R172). -/
def State.inFlightSound (s : State) : Prop :=
  match s.mu.inFlight with
  | some (.loadProfiles _ _ _) => s.si.mode = .config
  | some (.runEntry _ stage) =>
    s.si.mode = .config ∧ (2 ≤ stage → s.costsCurrent) ∧ (4 ≤ stage → s.ac.committedSum ≤ s.ac.bEff)
  | some (.sectorReset _ step) =>
    1 ≤ step ∧ s.si.mode = .config ∧
      (step = 2 → ∀ e ∈ s.tt.records, e.2.state.committed = false ∧ e.2.state.waiting = false ∧ e.2.cost = 0)
  | _ => True

/-- While the mode is RUN or COASTING, the committed sum is at most B_eff and every cost is current (R121, R126). -/
abbrev State.budgetSound (s : State) : Prop :=
  s.si.mode ≠ .config → s.ac.committedSum ≤ s.ac.bEff ∧ s.costsCurrent

/-- The laws of the account: records, committed sum, wait list, budget and command in flight together. -/
def State.ledgerSound (s : State) : Prop :=
  s.recordsSound ∧ (s.accountsSuspended = false → s.accountsSound ∧ s.waitListSound) ∧ s.budgetSound ∧ s.inFlightSound

/-- Places reserved for responses the part owes: for a header taken on DS-in, and for the command in flight (R7, R165). -/
def State.owedPlaces (s : State) : Nat :=
  (if s.paths.header = .reserved then 1 else 0) + (if s.mu.inFlight.isSome then 1 else 0)

/-- The Insertion Queue holds at most 16 cells and reserved places together, and the reserved places are exactly those owed
(R5, R7). -/
abbrev State.insertionSound (s : State) : Prop :=
  s.insertion.cells.length + s.insertion.reserved ≤ Config.insertionPlaces ∧ s.insertion.reserved = s.owedPlaces

/-- The Notice Queue holds at most 64 notices (R176). -/
abbrev State.noticesSound (s : State) : Prop := s.mu.notices.length ≤ Config.noticePlaces

/-- The Unlisted Queue holds at most 16 entries, no address twice, and none whose address is in the Station Map (R153). -/
abbrev State.unlistedSound (s : State) : Prop :=
  s.uq.queue.length ≤ Config.unlistedPlaces ∧ (s.uq.queue.map (·.addr)).Nodup ∧
    ∀ e ∈ s.uq.queue, e.addr ∉ s.tt.stationMap.map (·.2)

/-- The 27 parameters in index order. -/
def Params.values (p : Params) : List Nat :=
  [p.warningLimit, p.fadeExit, p.probationStart, p.probationLength, p.fadeProfile, p.snrShift, p.upgradeHysteresis,
   p.holdOffBase, p.pollBase, p.pollMax, p.pMin, p.pollLength, p.pExtraMax, p.regionStart, p.latestPollStart,
   p.timingTolerance, p.powerTolerance, p.maxTimingStep, p.maxPowerStep, p.rangingMaxAttempts, p.confirmTimeout,
   p.admitTriesMax, p.keepaliveInterval, p.admitMax, p.messageBudget, p.noticesPerReport, p.watchdogTime]

/-- The sector parameters pass the checks of R171. -/
abbrev State.paramsSound (s : State) : Prop := failingField s.params.values = none

/-- The watchdog is armed exactly in RUN, with the watchdog time in force (R16). -/
abbrev State.watchdogSound (s : State) : Prop :=
  s.si.watchdog = if s.si.mode = .run then some s.params.watchdogTime else none

/-- No record holds an outstanding poll outside RUN (R91). -/
abbrev State.pollsSound (s : State) : Prop :=
  s.si.mode ≠ .run → ∀ e ∈ s.tt.records, e.2.outstanding = none

/-- A Profile Table: eight entries within their ranges, P0 enabled, and among the enabled ones T ascending and C not
descending (R47, R48). -/
abbrev tableSound (t : List ProfileEntry) : Prop :=
  t.length = 8 ∧ (profileAt t 0).enabled = true ∧
    (∀ e ∈ t, -40 ≤ e.threshold ∧ e.threshold ≤ 160 ∧ 4 ≤ e.capacity ∧ e.capacity ≤ 240 ∧ e.overhead ≤ 3) ∧
    (t.filter (·.enabled)).Pairwise fun a b => a.threshold < b.threshold ∧ a.capacity ≤ b.capacity

/-- The Profile Table of the LOAD_PROFILES in flight (R48, R49). -/
def State.tableInFlight (s : State) : Option (List ProfileEntry) :=
  match s.mu.inFlight with
  | some (.loadProfiles _ t _) => some t
  | _ => none

/-- A Level Table: seven thresholds of 1..1001 that do not descend, and a level hold of 1..255 (R108). -/
abbrev levelTableSound (thresholds : List Nat) (levelHold : Nat) : Prop :=
  thresholds.length = 7 ∧ (∀ th ∈ thresholds, 1 ≤ th ∧ th ≤ 1001) ∧ thresholds.Pairwise (· ≤ ·) ∧
    1 ≤ levelHold ∧ levelHold ≤ 255

/-- A set of Budget Banks: eight values within 0..4095 (R113). -/
abbrev banksSound (banks : List Nat) : Prop := banks.length = 8 ∧ ∀ b ∈ banks, b ≤ 4095

/-- The tables and figures of LM, AC and MU are within their ranges: the Profile Tables in force and in flight, the Level
Table, the banks in force and staged, the storm, the levels with B_eff, and the eighteen enables of the notice mask (R47,
R107, R108, R110, R111, R113, R114, R178). -/
abbrev State.settingsSound (s : State) : Prop :=
  tableSound s.lm.profiles ∧ (∀ t ∈ s.tableInFlight, tableSound t) ∧ levelTableSound s.ac.thresholds s.ac.levelHold ∧
    banksSound s.ac.banks ∧ (∀ b ∈ s.ac.staged, banksSound b) ∧
    (∀ st ∈ s.ac.storm, 1 ≤ st.level ∧ st.level ≤ 7 ∧ 1 ≤ st.remaining ∧ st.remaining ≤ 256) ∧
    s.ac.rawLevel ≤ 7 ∧ s.ac.heldLevel ≤ 7 ∧ s.ac.effLevel ≤ 7 ∧ s.ac.holdCounter ≤ 254 ∧ s.ac.bEff ≤ 4095 ∧
    s.mu.mask.length = 18

/-- Each field of one record is within the range the table of R19 gives it. -/
abbrev recordInRange (r : Record) : Prop :=
  r.addr ≠ 0 ∧ r.load ≤ 4095 ∧ r.ceiling ≤ 7 ∧ r.fade ≤ 255 ∧ (∀ a ∈ r.avg, -640 ≤ a ∧ a ≤ 2560) ∧ r.profile ≤ 7 ∧
    r.holdOff ≤ 4095 ∧ r.backoff ≤ 6 ∧ r.probation ≤ 65535 ∧ r.misses ≤ 255 ∧ r.attempts ≤ 63 ∧
    -2048 ≤ r.lastTiming ∧ r.lastTiming ≤ 2047 ∧ -128 ≤ r.lastPower ∧ r.lastPower ≤ 127 ∧ r.cost ≤ 2047 ∧
    (∀ n ∈ r.confirmTimer, n ≤ 255) ∧ r.admitTries ≤ 7 ∧ r.lastOutage ≤ 65535

/-- What R21, R39 and R61 and the rules of its fields say of one record beside its ranges: an IN_SERVICE fade counter at
most 127, a hold-off in LOST alone, a hold request in RANGING alone, no message but SUSPEND in HELD, an ADMIT and a running
confirm timer in CONFIRMING alone. -/
abbrev recordConsistent (r : Record) : Prop :=
  (r.state = .inService → r.fade ≤ 127) ∧ (r.state ≠ .lost → r.holdOff = 0) ∧
    (r.state ≠ .ranging → r.holdReq = false) ∧
    (r.state = .held → r.message = none ∨ r.message = some .suspend) ∧
    (r.state ≠ .confirming → r.confirmTimer = none ∧ r.message ≠ some .admitMsg)

/-- Every record is within its ranges and consistent, and the sector parameters, from which the bounds come, pass their
checks (R19, R171). -/
abbrev State.fieldsSound (s : State) : Prop :=
  s.paramsSound ∧ ∀ e ∈ s.tt.records, recordInRange e.2 ∧ recordConsistent e.2

/-- The E of an emission that is owed is within the range of the parameter (R171, R179). -/
abbrev State.emissionSound (s : State) : Prop := ∀ e ∈ s.paths.emissionDue, 1 ≤ e ∧ e ≤ 8

/-! ## The vocabulary of the statements -/

/-- DS-in takes an item at once: RESET_N is high, no management cell's header is in passage, and no item waits to be sent on
DS-out (R1, R7). -/
abbrev State.dsReady (s : State) : Prop :=
  s.paths.resetLow = false ∧ s.paths.header = .none ∧ s.paths.dsItem = none

/-- A management cell is taken at once: RESET_N is high, a place is reserved for it or one is free, and no item waits to be
sent on DS-out (R1, R7). -/
abbrev State.cellReady (s : State) : Prop :=
  s.paths.resetLow = false ∧ (s.paths.header = .reserved ∨ (s.paths.header = .none ∧ 0 < s.freePlaces)) ∧
    s.paths.dsItem = none

/-- A command is carried out at once: its cell is taken, and no command is in flight (R7, R163). -/
abbrev State.commandReady (s : State) : Prop := s.cellReady ∧ s.mu.inFlight = none

/-- US-in takes an item at once: RESET_N is high, the path holds no item and no emission is owed (R1, R6). -/
abbrev State.usReady (s : State) : Prop :=
  s.paths.resetLow = false ∧ s.paths.usItem = none ∧ s.paths.emissionDue = none

/-- A report reaches the engine at once: US-in takes it, and the mode is RUN (R4). -/
abbrev State.usEngine (s : State) : Prop := s.usReady ∧ s.si.mode = .run

/-- The state once a cell has been removed from DS-in, `givenUp` of its places being given up again: none while a response is
owed for it, one when the cell is discarded (R7). -/
def State.cellRemoved (s : State) (givenUp : Nat) : State :=
  { s with
    paths := { s.paths with header := .none }
    insertion := { s.insertion with
      reserved := (if s.paths.header = .reserved then s.insertion.reserved else s.insertion.reserved + 1) - givenUp } }

/-- The state once a cell has been removed from DS-in and answered: the response has joined the tail of the Insertion Queue
in the cell's place (R5, R7, R164). -/
def State.answered (s : State) (tag code : Byte) (r : Reply) : State :=
  { s.cellRemoved 1 with
    insertion := { cells := s.insertion.cells ++ [.response tag code r.status r.failing r.remaining r.data]
                   reserved := (s.cellRemoved 1).insertion.reserved } }

/-- The state once the command in flight has been answered: it is no longer in flight, and its response has joined the tail
of the Insertion Queue in its reserved place (R165). -/
def State.completed (s : State) (tag code : Byte) (r : Reply) : State :=
  { s with
    mu := { s.mu with inFlight := none }
    insertion := { cells := s.insertion.cells ++ [.response tag code r.status r.failing r.remaining r.data]
                   reserved := s.insertion.reserved - 1 } }

/-- One record replaced; every other record stands as it was. -/
def State.put (s : State) (id : Nat) (r : Record) : State :=
  { s with tt := { s.tt with records := assocUpdate s.tt.records id fun _ => r } }

/-- Whether an item on DS-in takes a place of the Insertion Queue: a management cell, or one cut after its header (R2,
R7). -/
def needsPlace : DsItem → Bool
  | .cell _ => true
  | .command _ _ => true
  | .cut bytes => cutCell bytes && 3 ≤ bytes.length
  | _ => false

/-- The lengths of 12.4, as the number of bytes after the tag; `none` for a code that is no command's. -/
def paramsFit (code : Byte) (params : List Byte) : Option Bool :=
  match code.toNat with
  | 0x01 | 0x03 | 0x04 | 0x05 | 0x06 | 0x07 | 0x08 | 0x0E | 0x12 => some (params.length == 1)
  | 0x02 =>
    let k := (params.headD 0).toNat
    some (1 ≤ k && k ≤ 8 && params.length == 1 + 12 * k)
  | 0x09 => some (params.length == 40)
  | 0x0A => some (params.length == 16)
  | 0x0B => some (params.length == 15)
  | 0x0C => some (params.length == 39)
  | 0x0D => some (params.length == 54)
  | 0x0F | 0x10 | 0x11 | 0x14 => some (params.length == 0)
  | 0x13 => some (params.length == 18)
  | _ => none

end Sys2Proof.Machine
end

