-- ==== Sys2Proof/WellFormed.lean ====
section
/-! DEFINITION. Which commands can happen on the part's ports as their row describes them. Every meaning is total all the
same: an ill-formed command has an effect, but no sender following the spec gives it. -/

namespace Sys2Proof

/-- Whether an item's bytes fit the length field (12.1). -/
def fitsItem (bytes : List Byte) : Bool := bytes.length ≤ Config.maxItemLength

/-- Whether a burst report of this kind has room for what its kind must carry (R182). -/
def Burst.longEnough (b : Burst) : Bool := b.outcome != .good || 6 ≤ b.tail.length

/-- The bytes of an item that no block takes on its path: whole, and read as none of the items of R3 and R4. -/
def unrouted (path : Path) (bytes : List Byte) : Bool :=
  match path with
  | .downstream => readDs bytes == .raw bytes
  | .upstream => readUs bytes == .raw bytes

/-- The bytes of a cut item: at least its first byte, and fewer than its header declares where the header is whole (R2). -/
def cutShort : List Byte → Bool
  | [] => false
  | [_] => true
  | [_, _] => true
  | kind :: l1 :: l2 :: body => (kind :: l1 :: l2 :: body).length < declaredLength l1 l2

/-- A terminal ID that names a record (R19). -/
def namesRecord (id : Byte) : Bool := id != 0

/-- Well-formedness of a command: the operands are ones its row can carry. -/
def Instr.wf : Instr → Bool
  | .itemCut _ bytes => cutShort bytes && fitsItem bytes
  | .unroutedItem path bytes => unrouted path bytes && fitsItem bytes
  | .frameMarker frame tail => fitsItem (DsItem.marker frame tail).bytes
  | .map frame count body => fitsItem (DsItem.map frame count body).bytes
  | .controlSection offered messages => fitsItem (DsItem.control offered messages).bytes
  | .managementCell payload => fitsItem (DsItem.cell payload).bytes
  | .runEntryOperation last => 1 ≤ last && last ≤ 5
  | .loadTerminals _ es => (Command.loadTerminals es).lengthOk
  | .loadProfiles _ t => (Command.loadProfiles t).lengthOk
  | .loadBudget _ b => (Command.loadBudget b).lengthOk
  | .loadLevelTable _ ths h => (Command.loadLevelTable ths h).lengthOk
  | .loadSectorParameters _ v => (Command.loadSectorParameters v).lengthOk
  | .setNoticeMask _ m => (Command.setNoticeMask m).lengthOk
  | .sectorReset _ through => 1 ≤ through && through ≤ 7
  | .burstReport kind b => fitsItem (UsItem.burst kind b).bytes
  | .pollReport b => fitsItem (UsItem.poll b).bytes
  | .contentionReportListed b => b.outcome == .good && b.longEnough && fitsItem (UsItem.contention b).bytes
  | .contentionReportUnlisted b => b.longEnough && fitsItem (UsItem.contention b).bytes
  | .endOfFrameReport frame tail => fitsItem (UsItem.endOfFrame frame tail).bytes
  | .holdOffExpiry id => namesRecord id
  | .probationExpiry id => namesRecord id
  | .confirmTimerExpiry id => namesRecord id
  | .powerOn => true
  | .markerWatchdogExpiry => true
  | .mgmtCellHeader => true
  | .setModeConfig _ => true
  | .setModeRun _ => true
  | .provisioningEntry => true
  | .unload _ _ => true
  | .readTerminal _ _ => true
  | .hold _ _ => true
  | .release _ _ => true
  | .forceLoss _ _ => true
  | .cancelReentry _ _ => true
  | .loadProfilesReclamp => true
  | .loadFilters _ _ _ _ => true
  | .storm _ _ => true
  | .unlistedRead _ => true
  | .unlistedRelease _ => true
  | .unlistedClearOverrun _ => true
  | .readSector _ _ => true
  | .noticeEmission => true
  | .usOutBoundary => true
  | .stormExpiry => true
  | .levelHoldExpiry => true
  | .resetNFall => true

end Sys2Proof
end

