-- ==== Sys2Proof/Certificates/Slice0/Obligations.lean ====
section
/-! DEFINITION. The statements for the provers. Where one rests on a choice of the model, its docstring names the log. -/

section

open Sys2Proof Sys2Proof.Machine

/-! ## The queue of commands, power-on and RESET_N -/

/-- A step carries out the command at the front of the queue on the state with the queue's rest. On an empty queue the part
idles, except that a paused sector reset goes on by one step and DS-out's ready input takes a level the modulator gives it (the
model's choice: logs 6, 12, 13). -/
def Obligations.StepTakesFrontCommand : Prop :=
  (∀ (c : Instr) (rest : List Instr) (s : State), s.pending = c :: rest → step s = exec c { s with pending := rest }) ∧
  ∀ s : State, s.pending = [] →
    (s.paths.resetLow = true → step s = .next s) ∧
    (s.paths.resetLow = false →
      let u : State := match s.mu.inFlight with
        | some (.sectorReset _ _) => s.nextResetStep
        | _ => s
      ∃ level : Bool, step s = .next (State.nextRace (u.driveDsOut level)))

/-- The power-on values of R18, R47, R92, R108, R113, R119, R140, R151, R171, R176, R178. -/
def Obligations.ResetHoldsPowerOnValues : Prop :=
  let s := State.reset
  s.si = { mode := .config, markerCount := 0, frameNumber := 0, watchdog := none,
           sticky := { frameLostSeen := false, mapMalformedSeen := false, regionViolationSeen := false,
                       noticesDropped := false } } ∧
  s.insertion = { cells := [], reserved := 0 } ∧ s.paths.header = .none ∧ s.paths.usItem = none ∧
  s.tt = { records := [], stationMap := [] } ∧
  s.lm.profiles = { enabled := true, threshold := -40, capacity := 12, overhead := 2 } ::
    List.replicate 7 { enabled := false, threshold := 160, capacity := 4, overhead := 0 } ∧
  s.ac = { thresholds := [50, 100, 200, 300, 450, 600, 800], levelHold := 32, rawLevel := 0, heldLevel := 0,
           holdCounter := 0, storm := none, banks := [0, 0, 0, 0, 0, 0, 0, 0], staged := none, effLevel := 0,
           bEff := 0, committedSum := 0, waitList := [], shedNote := [] } ∧
  s.mp = { pollsPlaced := 0, reclaimedSlots := 0 } ∧
  s.uq = { acceptA := { code := 0, mask := 0, enabled := false }, acceptB := { code := 0, mask := 0, enabled := false },
           reject := { code := 0, mask := 0, enabled := false }, queue := [], overrun := false } ∧
  s.mu = { inFlight := none, notices := [], gapPending := false, mask := List.replicate 18 true } ∧
  s.params.values = [96, 64, 64, 500, 0, 2, 8, 32, 4, 256, 4, 3, 16, 0, 4095, 4, 4, 256, 24, 16, 16, 3, 64, 8, 8, 4, 3000]

/-- The state after power-on satisfies every law that the invariants below say each step keeps. -/
def Obligations.ResetMeetsEveryLaw : Prop :=
  State.reset.ledgerSound ∧ State.reset.insertionSound ∧ State.reset.noticesSound ∧ State.reset.recordsSound ∧
    State.reset.stationMapSound ∧ State.reset.unlistedSound ∧ State.reset.fieldsSound ∧ State.reset.settingsSound ∧
    State.reset.watchdogSound ∧ State.reset.pollsSound ∧ State.reset.emissionSound

/-- POWER_ON, RESET_N_FALL, and every other command while RESET_N is low (R18). What becomes of the queue, of the ports' record,
of DS-out's ready input and of the items in passage is the model's choice (log 15). -/
def Obligations.ResetNGovernsThePart : Prop :=
  (∀ s : State, exec .powerOn s = .next { State.reset with
    pending := s.pending
    raceTick := s.raceTick
    paths := { State.reset.paths with
      dsOutReady := s.paths.dsOutReady, dsOut := s.paths.dsOut, usOut := s.paths.usOut } }) ∧
  (∀ s : State, exec .resetNFall s = .next { s with
    insertion := { s.insertion with
      reserved := if s.paths.header = .reserved then s.insertion.reserved - 1 else s.insertion.reserved }
    paths := { resetLow := true, header := .none, dsOutReady := s.paths.dsOutReady, dsItem := none, dsHeld := []
               usItem := none, usHeld := [], emissionDue := none, dsOut := s.paths.dsOut, usOut := s.paths.usOut } }) ∧
  ∀ (c : Instr) (s : State), s.paths.resetLow = true → c ≠ .powerOn → c ≠ .resetNFall → exec c s = .next s

/-! ## Passage of items -/

/-- Outside RUN every item but a management cell and a marker in COASTING passes unchanged, and nothing else changes but the
frame number a marker records (R3, R4, R15, R57, R91, R105, R149, R162). -/
def Obligations.TransparentOutsideRun : Prop :=
  ∀ s : State, s.si.mode ≠ .run →
    (s.dsReady →
      (∀ frame count body, exec (.map frame count body) s = .next (s.offerDs (DsItem.map frame count body).bytes)) ∧
      (∀ offered messages,
        exec (.controlSection offered messages) s = .next (s.offerDs (DsItem.control offered messages).bytes)) ∧
      (s.si.mode = .config → ∀ frame tail,
        exec (.frameMarker frame tail) s =
          .next (({ s with si := { s.si with frameNumber := frame } }).offerDs (DsItem.marker frame tail).bytes))) ∧
    (s.usReady →
      (∀ kind b, exec (.burstReport kind b) s = .next (s.readyUs (UsItem.burst kind b).bytes false)) ∧
      (∀ b, exec (.pollReport b) s = .next (s.readyUs (UsItem.poll b).bytes false)) ∧
      (∀ b, exec (.contentionReportListed b) s = .next (s.readyUs (UsItem.contention b).bytes false)) ∧
      (∀ b, exec (.contentionReportUnlisted b) s = .next (s.readyUs (UsItem.contention b).bytes false)) ∧
      ∀ frame tail, exec (.endOfFrameReport frame tail) s = .next (s.readyUs (UsItem.endOfFrame frame tail).bytes true))

/-- Items that no block takes, and cut items, in every mode (R2, R3, R4, R9). A cut management cell is known by its first
byte (log 16). -/
def Obligations.UnroutedAndCutItemsPass : Prop :=
  ∀ (s : State) (bytes : List Byte),
    (s.dsReady → exec (.unroutedItem .downstream bytes) s = .next (s.offerDs bytes)) ∧
    (s.dsReady → cutCell bytes = false → exec (.itemCut .downstream bytes) s = .next (s.offerDs bytes)) ∧
    (s.dsReady → cutCell bytes = true → bytes.length < 3 → exec (.itemCut .downstream bytes) s = .next s) ∧
    (s.cellReady → cutCell bytes = true → 3 ≤ bytes.length →
      exec (.itemCut .downstream bytes) s = .next (s.cellRemoved 1)) ∧
    (s.usReady → exec (.unroutedItem .upstream bytes) s = .next (s.readyUs bytes false) ∧
      exec (.itemCut .upstream bytes) s = .next (s.readyUs bytes false))

/-- What cannot be taken waits on its port, in order, and an emission that is owed comes before the next report. A downstream
item waits while DS-out's ready input is low, and holds DS-in; when the input is high the item is sent, and what waits on DS-in
is taken in order. A forwarded upstream item holds the upstream path, with the mark of an end-of-frame report, until it is sent,
and nothing else changes (R1, R6, R7; logs 6, 7, 8). -/
def Obligations.HeldPortsQueueTheirItems : Prop :=
  (∀ (c : Instr) (i : DsItem) (s : State), c.dsItem? = some i → s.paths.resetLow = false →
    (s.paths.header = .waiting ∨ s.paths.dsItem.isSome) →
    exec c s = .next { s with paths := { s.paths with dsHeld := s.paths.dsHeld ++ [i] } }) ∧
  (∀ (c : Instr) (i : DsItem) (s : State), c.dsItem? = some i → needsPlace i = true → s.dsReady → s.freePlaces = 0 →
    exec c s = .next { s with paths := { s.paths with header := .waiting, dsHeld := s.paths.dsHeld ++ [i] } }) ∧
  (∀ (c : Instr) (i : UsItem) (s : State), c.usItem? = some i → s.paths.resetLow = false → s.paths.usItem.isSome →
    exec c s = .next { s with paths := { s.paths with usHeld := s.paths.usHeld ++ [i] } }) ∧
  (∀ (c : Instr) (i : UsItem) (s : State), c.usItem? = some i → s.paths.resetLow = false → s.paths.usItem = none →
    s.paths.emissionDue.isSome → ∃ t : State, exec .noticeEmission s = .next t ∧ exec c s = exec c t) ∧
  ∀ s : State,
    (∀ bytes eof, s.readyUs bytes eof = { s with
      paths := { s.paths with usItem := some { bytes := bytes, eof := eof } } }) ∧
    (∀ bytes, s.offerDs bytes = { s with paths :=
      if s.paths.dsOutReady then { s.paths with dsOut := s.paths.dsOut ++ [bytes] }
      else { s.paths with dsItem := some bytes } }) ∧
    (s.paths.dsItem = none → ∀ level, s.driveDsOut level = { s with paths := { s.paths with dsOutReady := level } }) ∧
    ∀ item, s.paths.dsItem = some item →
      s.driveDsOut false = { s with paths := { s.paths with dsOutReady := false } } ∧
      s.driveDsOut true = s.paths.dsHeld.foldl State.arriveDs { s with
        paths := { s.paths with dsOutReady := true, dsItem := none, dsHeld := [], dsOut := s.paths.dsOut ++ [item] } }

/-- A management cell's header reserves a place, or holds DS-in when none is free. An item that begins while a header is in
passage cuts that cell: it is discarded, its place released, and the item is handled as it would be then (R2, R7, R163). -/
def Obligations.CellHeaderReservesPlace : Prop :=
  (∀ s : State, s.dsReady →
    (0 < s.freePlaces → exec .mgmtCellHeader s = .next { s with
      paths := { s.paths with header := .reserved }
      insertion := { s.insertion with reserved := s.insertion.reserved + 1 } }) ∧
    (s.freePlaces = 0 → exec .mgmtCellHeader s = .next { s with paths := { s.paths with header := .waiting } })) ∧
  ∀ (c : Instr) (i : DsItem) (s : State), c.dsItem? = some i → needsPlace i = false → s.paths.resetLow = false →
    s.paths.header = .reserved → s.paths.dsItem = none →
    exec c s = exec c { s with paths := { s.paths with header := .none }
                               insertion := { s.insertion with reserved := s.insertion.reserved - 1 } }

/-! ## Management cells -/

/-- Checks 1 to 4 of R163 in their order; a cell they answer changes no state of any block. While a command is in flight every
other command's row is answered BUSY, a second SECTOR_RESET included (R163, R166, R167). -/
def Obligations.CellChecksInOrder : Prop :=
  (∀ (s : State) (payload : List Byte), s.cellReady →
    (payload.length < 2 → exec (.managementCell payload) s = .next (s.cellRemoved 1)) ∧
    ∀ code tag params, payload = code :: tag :: params →
      (s.mu.inFlight.isSome → code ≠ 0x14 →
        exec (.managementCell payload) s = .next (s.answered tag code { status := .busy })) ∧
      (s.mu.inFlight = none ∨ code = 0x14 → paramsFit code params = none →
        exec (.managementCell payload) s = .next (s.answered tag code { status := .unknownCommand })) ∧
      (s.mu.inFlight = none ∨ code = 0x14 → paramsFit code params = some false →
        exec (.managementCell payload) s = .next (s.answered tag code { status := .badLength }))) ∧
  ∀ (row : Instr) (tag : Byte) (c : Command) (s : State), row.dsItem? = some (.command tag c) → s.cellReady →
    s.mu.inFlight.isSome → (c.code ≠ 0x14 ∨ ∃ tag' step, s.mu.inFlight = some (.sectorReset tag' step)) →
    exec row s = .next (s.answered tag c.code { status := .busy })

/-- A management cell whose bytes are a command's is that command's row (R163, 12.4; log 10). The bytes of SECTOR_RESET are
its row with all seven steps (log 12). -/
def Obligations.CellCarriesItsCommand : Prop :=
  ∀ (row : Instr) (tag : Byte) (c : Command) (s : State), row.dsItem? = some (.command tag c) → c.lengthOk = true →
    (∀ n, c = .sectorReset n → n = 7) → s.cellReady →
    ∃ t : State, exec (.managementCell (c.code :: tag :: c.params)) s = .next t ∧ exec row s = .next t

/-- SET_MODE by the current mode, and a requested value that is neither mode (R10, R11). -/
def Obligations.SetModeByCurrentMode : Prop :=
  ∀ (s : State) (tag : Byte), s.commandReady →
    (s.si.mode = .config → exec (.setModeConfig tag) s = .next (s.answered tag 0x01 { status := .ok }) ∧
      exec (.setModeRun tag) s = .next { s.cellRemoved 0 with mu := { s.mu with inFlight := some (.runEntry tag 0) } }) ∧
    (s.si.mode = .run →
      exec (.setModeConfig tag) s = .next (({ s with
        si := { s.si with mode := .config, watchdog := none }
        tt := { s.tt with
          records := s.tt.records.map fun (e : Nat × Record) => (e.1, { e.2 with outstanding := none }) } }).answered tag 0x01
            { status := .ok }) ∧
      exec (.setModeRun tag) s = .next (s.answered tag 0x01 { status := .ok })) ∧
    (s.si.mode = .coasting →
      exec (.setModeConfig tag) s =
        .next (({ s with si := { s.si with mode := .config } }).answered tag 0x01 { status := .ok }) ∧
      exec (.setModeRun tag) s = .next (s.answered tag 0x01 { status := .badMode })) ∧
    ∀ value : Byte, 2 ≤ value.toNat →
      exec (.managementCell [0x01, tag, value]) s = .next (s.answered tag 0x01 { status := .badValue })

/-- The RUN-entry operation, carried on through a stage `last` (log 11): each stage on its own, with the hold counter and
LEVEL_CHANGED of stage 3, the shed check of stage 4, and mode, watchdog and response of stage 5; several stages as one after
another; the figures all of them leave, and what the operation leaves alone (R12, R50, R107, R113, R114, R116, R123, R128).
Where the operation is not in flight, nothing changes (log 5). -/
def Obligations.RunEntryStages : Prop :=
  (∀ (s : State) (last : Nat), (∀ tag k, s.mu.inFlight ≠ some (.runEntry tag k)) →
    exec (.runEntryOperation last) s = .next s) ∧
  (∀ (s : State) (tag : Byte) (k : Nat), s.paths.resetLow = false → s.mu.inFlight = some (.runEntry tag k) →
    let reached (u : State) : State := { u with mu := { u.mu with inFlight := some (.runEntry tag (k + 1)) } }
    let n := (s.tt.records.filter fun e => decide (e.2.state ≠ TState.held)).length
    let o := (s.tt.records.filter fun e => decide
      (e.2.state = TState.lost ∨ e.2.state = TState.polling ∨ e.2.state = TState.ranging)).length
    let raw := (s.ac.thresholds.filter fun th => decide (th ≤ if n = 0 then 0 else 1000 * o / n)).length
    let held := max s.ac.heldLevel raw
    let level := match s.ac.storm with
      | some st => max held st.level
      | none => held
    let bEff := (s.ac.staged.getD s.ac.banks).getD level 0 - s.params.pMin * s.params.pollLength
    let levelled : State := { s with ac := { s.ac with
      banks := s.ac.staged.getD s.ac.banks, staged := none, rawLevel := raw, heldLevel := held
      holdCounter := if s.ac.heldLevel ≤ raw then 0 else s.ac.holdCounter, effLevel := level, bEff := bEff } }
    let recosted (r : Record) : Record :=
      if r.state = .confirming ∨ r.state = .inService ∨ r.state = .fading then
        let e := profileAt s.lm.profiles r.profile
        { r with cost := e.overhead + (r.load + e.capacity - 1) / e.capacity }
      else r
    (k = 0 → exec (.runEntryOperation 1) s = .next (reached { s with tt := { s.tt with
      records := s.tt.records.map fun (e : Nat × Record) =>
        (e.1, { e.2 with profile := min e.2.profile (effectiveCeiling s.lm.profiles e.2) }) } })) ∧
    (k = 1 → exec (.runEntryOperation 2) s = .next (reached { s with
      tt := { s.tt with records := s.tt.records.map fun (e : Nat × Record) => (e.1, recosted e.2) }
      ac := { s.ac with
        committedSum := committedTotal (s.tt.records.map fun (e : Nat × Record) => (e.1, recosted e.2)) } })) ∧
    (k = 2 → exec (.runEntryOperation 3) s = .next (reached (if level = s.ac.effLevel then levelled
      else levelled.notify .levelChanged none [s.ac.effLevel, level, bEff]))) ∧
    (k = 3 → exec (.runEntryOperation 4) s = .next (reached (s.shedCheck false))) ∧
    (k = 4 → exec (.runEntryOperation 5) s = .next (State.completed { s with
      si := { s.si with mode := .run, watchdog := some s.params.watchdogTime } } tag 0x01 { status := .ok })) ∧
    ∀ last, k < last → k ≤ 4 → exec (.runEntryOperation last) s =
      (match exec (.runEntryOperation (k + 1)) s with
        | .next u => exec (.runEntryOperation last) u
        | stop => stop)) ∧
  ∀ (s : State) (tag : Byte) (k last : Nat), s.paths.resetLow = false → s.mu.inFlight = some (.runEntry tag k) → k ≤ 4 →
    s.recordsSound →
    ∃ t : State, exec (.runEntryOperation last) s = .next t ∧
      (last ≤ k → t = s) ∧
      (k < last → last ≤ 4 → t.mu.inFlight = some (.runEntry tag last) ∧ t.si.mode = s.si.mode ∧
        t.si.watchdog = s.si.watchdog ∧ t.insertion = s.insertion) ∧
      (4 < last → t.mu.inFlight = none ∧ t.si.mode = .run ∧ t.si.watchdog = some s.params.watchdogTime ∧
        t.insertion = { cells := s.insertion.cells ++ [.response tag 0x01 .ok 0 0 []]
                        reserved := s.insertion.reserved - 1 }) ∧
      (k = 0 → 4 < last → t.costsCurrent ∧ t.ac.committedSum = committedTotal t.tt.records ∧
        t.ac.committedSum ≤ t.ac.bEff ∧ t.ac.banks = s.ac.staged.getD s.ac.banks ∧ t.ac.staged = none ∧
        t.ac.effLevel = effectiveLevel t.ac.heldLevel s.ac.storm ∧
        t.ac.bEff = effectiveBudget t.ac.banks s.params t.ac.effLevel ∧
        t.ac.heldLevel = max s.ac.heldLevel t.ac.rawLevel ∧
        (let n := (s.tt.records.filter fun e => decide (e.2.state ≠ TState.held)).length
         let o := (s.tt.records.filter fun e => decide
           (e.2.state = TState.lost ∨ e.2.state = TState.polling ∨ e.2.state = TState.ranging)).length
         t.ac.rawLevel = (s.ac.thresholds.filter fun th => decide (th ≤ if n = 0 then 0 else 1000 * o / n)).length) ∧
        ∀ e ∈ t.tt.records, e.2.profile ≤ effectiveCeiling s.lm.profiles e.2) ∧
      t.ids = s.ids ∧ t.tt.stationMap = s.tt.stationMap ∧ t.si.markerCount = s.si.markerCount ∧
      t.si.frameNumber = s.si.frameNumber ∧ t.paths = s.paths ∧ t.lm = s.lm ∧ t.mp = s.mp ∧ t.uq = s.uq ∧
      t.params = s.params ∧ t.pending = s.pending ∧ t.ac.storm = s.ac.storm ∧ t.ac.thresholds = s.ac.thresholds ∧
      t.ac.levelHold = s.ac.levelHold ∧ t.mu.mask = s.mu.mask

/-! ## Provisioning -/

/-- LOAD_TERMINALS becomes the command in flight; an entry in its turn meets the checks of R23 in their order, and the first
that fails completes the command with the figures of R169 and changes nothing else (R23, R163, R169). Where no entry is in
turn, nothing changes (log 5). -/
def Obligations.ProvisioningEntriesAreChecked : Prop :=
  (∀ (s : State) (tag : Byte) (es : List ProvEntry), s.commandReady →
    (1 ≤ es.length → es.length ≤ 8 → exec (.loadTerminals tag es) s =
      .next { s.cellRemoved 0 with mu := { s.mu with inFlight := some (.loadTerminals tag es 0) } }) ∧
    (¬ (1 ≤ es.length ∧ es.length ≤ 8) →
      exec (.loadTerminals tag es) s = .next (s.answered tag 0x02 { status := .badLength }))) ∧
  (∀ (s : State) (e : ProvEntry), s.entryFailure e =
    if e.id = 0 then some .badId
    else if e.addr = 0 ∨ 2 < e.cls.toNat ∨ 4095 < e.load.toNat ∨ 7 < e.ceiling.toNat then some .badValue
    else if ∃ p ∈ s.tt.stationMap, p.2 = e.addr ∧ p.1 ≠ e.id.toNat then some .duplicateAddress
    else if s.si.mode ≠ .config ∧ ¬ (s.stateOf e.id.toNat = none ∨ s.stateOf e.id.toNat = some .held) then some .notHeld
    else none) ∧
  (∀ s : State, (∀ tag es k, s.mu.inFlight ≠ some (.loadTerminals tag es k)) → exec .provisioningEntry s = .next s) ∧
  ∀ (s : State) (tag : Byte) (es : List ProvEntry) (k : Nat) (e : ProvEntry) (status : Status),
    s.paths.resetLow = false → s.mu.inFlight = some (.loadTerminals tag es k) → es[k]? = some e →
    s.entryFailure e = some status →
    exec .provisioningEntry s =
      .next (s.completed tag 0x02 { status := status, failing := k + 1, remaining := es.length - k })

/-- An entry that passes and names a VACANT ID creates a record with the values of R24, maps its address and removes it from
the Unlisted Queue; the last entry completes the command (R24, R26, R157, R169). -/
def Obligations.ProvisioningEntryCreates : Prop :=
  ∀ (s : State) (tag : Byte) (es : List ProvEntry) (k : Nat) (e : ProvEntry), s.paths.resetLow = false →
    s.mu.inFlight = some (.loadTerminals tag es k) → es[k]? = some e → s.entryFailure e = none →
    s.record? e.id.toNat = none →
    ∃ t : State, exec .provisioningEntry s = .next t ∧
      (∃ r, t.record? e.id.toNat = some r ∧
        (r.addr = e.addr ∧ r.cls.code = e.cls.toNat ∧ r.load = e.load.toNat ∧ r.ceiling = e.ceiling.toNat) ∧
        r.state = (if e.flags.getLsbD 0 then .held else .polling) ∧
        (r.fade = 0 ∧ r.avg = none ∧ r.profile = 0) ∧
        (r.holdOff = 0 ∧ r.backoff = 0 ∧ r.probation = 0 ∧ r.outageStart = none ∧ r.cancelReq = false) ∧
        (r.misses = 0 ∧ r.nextEligible = s.si.markerCount ∧ r.outstanding = none ∧
          r.keepaliveDue = s.si.markerCount) ∧
        (r.attempts = 0 ∧ r.holdReq = false ∧ r.lastTiming = 0 ∧ r.lastPower = 0) ∧
        (r.cost = 0 ∧ r.confirmTimer = none ∧ r.admitTries = 0 ∧ r.message = none) ∧
        (r.losses = 0 ∧ r.restorations = 0 ∧ r.sheds = 0 ∧ r.pollMisses = 0) ∧
        (r.lastReason = .none ∧ r.lastOutage = 0)) ∧
      (∀ id, id ≠ e.id.toNat → t.record? id = s.record? id) ∧
      assocGet t.tt.stationMap e.id.toNat = some e.addr ∧
      (∀ id, id ≠ e.id.toNat → assocGet t.tt.stationMap id = assocGet s.tt.stationMap id) ∧
      t.uq = { s.uq with queue := s.uq.queue.filter fun u => u.addr ≠ e.addr } ∧
      (k + 1 < es.length → t.mu = { s.mu with inFlight := some (.loadTerminals tag es (k + 1)) } ∧
        t.insertion = s.insertion) ∧
      (k + 1 = es.length → t.mu = { s.mu with inFlight := none } ∧
        t.insertion = (s.completed tag 0x02 { status := .ok }).insertion) ∧
      t.si = s.si ∧ t.paths = s.paths ∧ t.ac = s.ac ∧ t.lm = s.lm ∧ t.mp = s.mp ∧ t.ot = s.ot ∧ t.params = s.params ∧
      t.pending = s.pending

/-- An entry that passes and names a provisioned record replaces its provisioning fields, re-clamps its profile, moves it on
the wait list when its class changes, and leaves the state, the cost and everything else (R25, R26, R50, R157). -/
def Obligations.ProvisioningEntryReplaces : Prop :=
  ∀ (s : State) (tag : Byte) (es : List ProvEntry) (k : Nat) (e : ProvEntry) (r : Record), s.paths.resetLow = false →
    s.recordsSound → s.mu.inFlight = some (.loadTerminals tag es k) → es[k]? = some e → s.entryFailure e = none →
    s.record? e.id.toNat = some r →
    ∃ t cls, exec .provisioningEntry s = .next t ∧ Cls.ofByte e.cls = some cls ∧
      t.tt.records = assocUpdate s.tt.records e.id.toNat (fun _ =>
        { r with addr := e.addr, cls := cls, load := e.load.toNat, ceiling := e.ceiling.toNat
                 profile := min r.profile (effectiveCeiling s.lm.profiles { r with ceiling := e.ceiling.toNat }) }) ∧
      t.tt.stationMap = assocPut s.tt.stationMap e.id.toNat e.addr ∧
      (r.cls = cls ∨ e.id.toNat ∉ s.ac.waitList → t.ac = s.ac) ∧
      (r.cls ≠ cls → e.id.toNat ∈ s.ac.waitList → t.ac = { s.ac with
        waitList := insertBy t.outranks e.id.toNat (s.ac.waitList.filter (· ≠ e.id.toNat)) }) ∧
      t.uq = { s.uq with queue := s.uq.queue.filter fun u => u.addr ≠ e.addr } ∧
      (k + 1 < es.length → t.mu = { s.mu with inFlight := some (.loadTerminals tag es (k + 1)) } ∧
        t.insertion = s.insertion) ∧
      (k + 1 = es.length → t.mu = { s.mu with inFlight := none } ∧
        t.insertion = (s.completed tag 0x02 { status := .ok }).insertion) ∧
      t.si = s.si ∧ t.paths = s.paths ∧ t.lm = s.lm ∧ t.mp = s.mp ∧ t.ot = s.ot ∧ t.params = s.params ∧
      t.pending = s.pending

/-! ## Commands that name one terminal -/

/-- The refusals of the commands that name one terminal: each is answered and changes nothing else (R27, R28, R32, R33, R68,
R69, R168). -/
def Obligations.TerminalCommandsRefuse : Prop :=
  ∀ (s : State) (tag id : Byte), s.commandReady →
    (id = 0 →
      exec (.unload tag id) s = .next (s.answered tag 0x03 { status := .badId }) ∧
      exec (.readTerminal tag id) s = .next (s.answered tag 0x04 { status := .badId }) ∧
      exec (.hold tag id) s = .next (s.answered tag 0x05 { status := .badId }) ∧
      exec (.release tag id) s = .next (s.answered tag 0x06 { status := .badId }) ∧
      (s.si.mode = .run → exec (.forceLoss tag id) s = .next (s.answered tag 0x07 { status := .badId }) ∧
        exec (.cancelReentry tag id) s = .next (s.answered tag 0x08 { status := .badId }))) ∧
    (id ≠ 0 → s.record? id.toNat = none →
      exec (.unload tag id) s = .next (s.answered tag 0x03 { status := .vacant }) ∧
      exec (.readTerminal tag id) s = .next (s.answered tag 0x04 { status := .vacant }) ∧
      exec (.hold tag id) s = .next (s.answered tag 0x05 { status := .vacant }) ∧
      exec (.release tag id) s = .next (s.answered tag 0x06 { status := .vacant }) ∧
      (s.si.mode = .run → exec (.forceLoss tag id) s = .next (s.answered tag 0x07 { status := .vacant }) ∧
        exec (.cancelReentry tag id) s = .next (s.answered tag 0x08 { status := .vacant }))) ∧
    (s.si.mode ≠ .run →
      exec (.forceLoss tag id) s = .next (s.answered tag 0x07 { status := .badMode }) ∧
      exec (.cancelReentry tag id) s = .next (s.answered tag 0x08 { status := .badMode })) ∧
    (id ≠ 0 → ∀ r, s.record? id.toNat = some r →
      (s.si.mode ≠ .config → r.state ≠ .held →
        exec (.unload tag id) s = .next (s.answered tag 0x03 { status := .notHeld })) ∧
      (s.si.mode = .run → r.state = .held →
        exec (.forceLoss tag id) s = .next (s.answered tag 0x07 { status := .wrongState })) ∧
      (r.state ≠ .held → (r.state ≠ .ranging ∨ r.holdReq = false) →
        exec (.release tag id) s = .next (s.answered tag 0x06 { status := .wrongState })))

/-- UNLOAD, READ_TERMINAL with the 53 bytes of its result, RELEASE, CANCEL_REENTRY and FORCE_LOSS where they are carried out
(R27, R32, R33, R68, R69, 12.5). -/
def Obligations.TerminalCommandsAtArrival : Prop :=
  ∀ (s : State) (tag id : Byte) (r : Record), s.commandReady → s.recordsSound → id ≠ 0 →
    s.record? id.toNat = some r →
    let place := s.waitPlace id.toNat
    let bit (b : Bool) (weight : Nat) : Nat := if b then weight else 0
    let messageCode : Nat := match r.message with
      | none => 0
      | some (.rangeAdjust _ _) => 1
      | some .admitMsg => 2
      | some .profileSet => 3
      | some .suspend => 4
    let terminalBytes : List Byte :=
      addressBytes r.addr ++ [byteOf r.cls.code] ++ halfBytes (BitVec.ofNat 16 r.load) ++
        [byteOf r.ceiling, byteOf r.state.code,
          byteOf (bit r.avg.isSome 1 + bit r.outageStart.isSome 2 + bit r.cancelReq 4 + bit r.outstanding.isSome 8 +
            bit r.holdReq 16 + bit r.confirmTimer.isSome 32), byteOf r.fade] ++
        halfBytes (BitVec.ofInt 16 (r.avg.getD 0)) ++ [byteOf r.profile] ++ halfBytes (BitVec.ofNat 16 r.holdOff) ++
        [byteOf r.backoff] ++ halfBytes (BitVec.ofNat 16 r.probation) ++ wordBytes (r.outageStart.getD 0) ++
        [byteOf r.misses] ++ wordBytes r.nextEligible ++ halfBytes (r.outstanding.getD 0) ++ wordBytes r.keepaliveDue ++
        [byteOf r.attempts] ++ halfBytes (BitVec.ofInt 16 r.lastTiming) ++ [BitVec.ofInt 8 r.lastPower] ++
        halfBytes (BitVec.ofNat 16 r.cost) ++ [byteOf (r.confirmTimer.getD 0), byteOf r.admitTries, byteOf messageCode] ++
        [r.losses, r.restorations, r.sheds, r.pollMisses] ++ [byteOf r.lastReason.code] ++
        halfBytes (BitVec.ofNat 16 r.lastOutage) ++ [byteOf place]
    (s.si.mode = .config ∨ r.state = .held → exec (.unload tag id) s = .next (({ s with
      tt := { records := s.tt.records.filter fun e => e.1 ≠ id.toNat
              stationMap := s.tt.stationMap.filter fun e => e.1 ≠ id.toNat }
      ac := { s.ac with
        committedSum := if r.state.committed then s.ac.committedSum - r.cost else s.ac.committedSum
        waitList := s.ac.waitList.filter (· ≠ id.toNat) } }).answered tag 0x03 { status := .ok })) ∧
    (exec (.readTerminal tag id) s = .next (s.answered tag 0x04 { status := .ok, data := terminalBytes }) ∧
      terminalBytes.length = 53 ∧ (id.toNat ∉ s.ac.waitList → place = 0) ∧
      (id.toNat ∈ s.ac.waitList → ∃ before after, s.ac.waitList = before ++ id.toNat :: after ∧ id.toNat ∉ before ∧
        place = before.length + 1)) ∧
    (r.state = .held → exec (.release tag id) s = .next ((s.put id.toNat
      { r with state := .polling, misses := 0, nextEligible := s.si.markerCount }).answered tag 0x06
        { status := .ok })) ∧
    (r.state = .ranging → r.holdReq = true → exec (.release tag id) s =
      .next ((s.put id.toNat { r with holdReq := false }).answered tag 0x06 { status := .ok })) ∧
    (s.si.mode = .run → exec (.cancelReentry tag id) s =
      .next ((s.put id.toNat { r with cancelReq := true }).answered tag 0x08 { status := .ok })) ∧
    (s.si.mode = .run → r.state ≠ .held →
      exec (.forceLoss tag id) s = .next ((s.lose .admin id.toNat).answered tag 0x07 { status := .ok }))

/-- HOLD by the state of the record (R28, R29, R30). -/
def Obligations.HoldByState : Prop :=
  ∀ (s : State) (tag id : Byte) (r : Record), s.commandReady → s.recordsSound → id ≠ 0 → s.record? id.toNat = some r →
    (r.state = .held → exec (.hold tag id) s = .next (s.answered tag 0x05 { status := .ok, data := [0x00] })) ∧
    (r.state = .ranging → exec (.hold tag id) s =
      .next ((s.put id.toNat { r with holdReq := true }).answered tag 0x05 { status := .ok, data := [0x01] })) ∧
    (r.state = .lost ∨ r.state = .polling ∨ r.state = .admitWait → exec (.hold tag id) s =
      .next (((({ s with ac := { s.ac with
          waitList := if r.state = TState.admitWait then s.ac.waitList.filter (· ≠ id.toNat) else s.ac.waitList } }).put
        id.toNat { r with state := .held, outstanding := none, holdOff := 0, message := none }).notify .holdGranted
          (some id.toNat) [r.state.code]).answered tag 0x05 { status := .ok, data := [0x00] })) ∧
    (r.state = .confirming ∨ r.state = .inService ∨ r.state = .fading ∨ r.state = .shed → exec (.hold tag id) s =
      .next (((({ s with ac := { s.ac with
          committedSum := if r.state = TState.shed then s.ac.committedSum else s.ac.committedSum - r.cost
          waitList := if r.state = TState.shed then s.ac.waitList.filter (· ≠ id.toNat) else s.ac.waitList } }).put
        id.toNat { r with state := .held, cost := 0, outstanding := none, message := some .suspend, confirmTimer := none,
                          probation := 0 }).notify .holdGranted (some id.toNat) [r.state.code]).answered tag 0x05
            { status := .ok, data := [0x00] }))

/-- The loss procedure: the accounts, every field it sets, the notices in their order, and every other record kept (R59 to
R63, R31). -/
def Obligations.LossProcedure : Prop :=
  ∀ (s : State) (reason : LossReason) (id : Nat) (r : Record), s.recordsSound → s.record? id = some r →
    let grant := r.state = .ranging ∧ r.holdReq = true ∧
      (reason = .rangingFailed ∨ reason = .admin ∨ reason = .cancelled)
    let b := if reason = .rangingFailed ∨ reason = .confirmTimeout ∨ (reason = .fade ∧ 0 < r.probation)
      then min 6 (r.backoff + 1) else r.backoff
    let holdOff := if reason = .rebooted ∨ grant then 0 else min (s.params.holdOffBase * 2 ^ b) 4095
    let lost : Record := { r with
      cost := 0, outstanding := none, message := none, confirmTimer := none, admitTries := 0, fade := 0, avg := none
      attempts := 0, misses := 0, backoff := b, probation := 0, holdOff := holdOff
      outageStart := some (r.outageStart.getD s.si.markerCount), losses := r.losses + 1, lastReason := reason
      state := if reason = .rebooted then .ranging else if grant then .held else .lost
      holdReq := if grant then false else r.holdReq }
    let accounts : State := { s with ac := { s.ac with
      committedSum := if r.state = .confirming ∨ r.state = .inService ∨ r.state = .fading
        then s.ac.committedSum - r.cost else s.ac.committedSum
      waitList := if r.state = .admitWait ∨ r.state = .shed then s.ac.waitList.filter (· ≠ id) else s.ac.waitList } }
    let told := (accounts.put id lost).notify .terminalLost (some id) [reason.code, r.state.code, holdOff]
    s.lose reason id = if grant then told.notify .holdGranted (some id) [TState.ranging.code] else told

/-! ## Tables and settings -/

/-- LOAD_PROFILES at its arrival, by the checks of R48. -/
def Obligations.LoadProfilesIsChecked : Prop :=
  ∀ (s : State) (tag : Byte) (w : List ProfileWire), s.commandReady →
    let t := w.map profileOfWire
    let inRange := ∀ e ∈ t, -40 ≤ e.threshold ∧ e.threshold ≤ 160 ∧ 4 ≤ e.capacity ∧ e.capacity ≤ 240 ∧ e.overhead ≤ 3
    let ordered := (t.filter (·.enabled)).Pairwise fun a b => a.threshold < b.threshold ∧ a.capacity ≤ b.capacity
    (w.length ≠ 8 → exec (.loadProfiles tag w) s = .next (s.answered tag 0x09 { status := .badLength })) ∧
    (w.length = 8 →
      (s.si.mode ≠ .config → exec (.loadProfiles tag w) s = .next (s.answered tag 0x09 { status := .badMode })) ∧
      (s.si.mode = .config →
        (¬ inRange → exec (.loadProfiles tag w) s = .next (s.answered tag 0x09 { status := .badValue })) ∧
        (inRange → ((profileAt t 0).enabled = false ∨ ¬ ordered) →
          exec (.loadProfiles tag w) s = .next (s.answered tag 0x09 { status := .badProfileOrder })) ∧
        (inRange → (profileAt t 0).enabled = true → ordered → exec (.loadProfiles tag w) s =
          .next { s.cellRemoved 0 with mu := { s.mu with inFlight := some (.loadProfiles tag t 0) } })))

/-- The table of a LOAD_PROFILES in flight is put in force whole, every record not yet re-clamped falls to its effective
ceiling when it is above it, and the command completes (R49, R50). The effective ceiling is the highest enabled profile at
or below the record's own. Where no table is in flight, nothing changes (log 5). -/
def Obligations.ReclampFollowsTable : Prop :=
  (∀ (s : State) (tag : Byte) (t : List ProfileEntry) (k : Nat), s.paths.resetLow = false →
    s.mu.inFlight = some (.loadProfiles tag t k) →
    exec .loadProfilesReclamp s = .next (({ s with
      lm := { profiles := t }
      tt := { s.tt with records := s.tt.records.map fun (e : Nat × Record) =>
        (e.1, if k < e.1 then { e.2 with profile := min e.2.profile (effectiveCeiling t e.2) } else e.2) } }).completed
          tag 0x09 { status := .ok })) ∧
  (∀ s : State, (∀ tag t k, s.mu.inFlight ≠ some (.loadProfiles tag t k)) → exec .loadProfilesReclamp s = .next s) ∧
  ∀ (t : List ProfileEntry) (r : Record), (profileAt t 0).enabled = true →
    effectiveCeiling t r ≤ r.ceiling ∧ (profileAt t (effectiveCeiling t r)).enabled = true ∧
      ∀ p, p ≤ r.ceiling → (profileAt t p).enabled = true → p ≤ effectiveCeiling t r

/-- LOAD_LEVEL_TABLE (R109). -/
def Obligations.LevelTableLoad : Prop :=
  ∀ (s : State) (tag : Byte) (ths : List Half) (levelHold : Byte), s.commandReady → ths.length = 7 →
    let t := ths.map BitVec.toNat
    let ok := (∀ th ∈ t, 1 ≤ th ∧ th ≤ 1001) ∧ 1 ≤ levelHold.toNat ∧ t.Pairwise (· ≤ ·)
    (s.si.mode ≠ .config →
      exec (.loadLevelTable tag ths levelHold) s = .next (s.answered tag 0x0B { status := .badMode })) ∧
    (s.si.mode = .config →
      (¬ ok → exec (.loadLevelTable tag ths levelHold) s = .next (s.answered tag 0x0B { status := .badValue })) ∧
      (ok → exec (.loadLevelTable tag ths levelHold) s = .next (({ s with
        ac := { s.ac with thresholds := t, levelHold := levelHold.toNat } }).answered tag 0x0B { status := .ok })))

/-- STORM and LOAD_BUDGET, in every mode: neither changes the level or B_eff, and neither queues a notice (R111, R113). -/
def Obligations.StormAndBudgetCommands : Prop :=
  ∀ (s : State) (tag : Byte), s.commandReady →
    (exec (.storm tag 0) s =
      .next (({ s with ac := { s.ac with storm := none } }).answered tag 0x0E { status := .ok })) ∧
    (∀ level : Byte, level ≠ 0 → exec (.storm tag level) s = .next (({ s with
      ac := { s.ac with storm := some { level := min 7 level.toNat, remaining := 256 } } }).answered tag 0x0E
        { status := .ok })) ∧
    (∀ banks : List Half, banks.length = 8 →
      ((∀ b ∈ banks, b.toNat ≤ 4095) → exec (.loadBudget tag banks) s = .next (({ s with
        ac := { s.ac with staged := some (banks.map BitVec.toNat) } }).answered tag 0x0A { status := .ok })) ∧
      ((∃ b ∈ banks, 4095 < b.toNat) →
        exec (.loadBudget tag banks) s = .next (s.answered tag 0x0A { status := .badValue })))

/-- LOAD_FILTERS (R161). -/
def Obligations.FiltersLoad : Prop :=
  ∀ (s : State) (tag : Byte) (a b r : FilterWire), s.commandReady →
    let loaded (w : FilterWire) : Filter := { code := w.code, mask := w.mask, enabled := w.enabled == 1 }
    let ok := a.enabled.toNat ≤ 1 ∧ b.enabled.toNat ≤ 1 ∧ r.enabled.toNat ≤ 1
    (s.si.mode ≠ .config → exec (.loadFilters tag a b r) s = .next (s.answered tag 0x0C { status := .badMode })) ∧
    (s.si.mode = .config →
      (¬ ok → exec (.loadFilters tag a b r) s = .next (s.answered tag 0x0C { status := .badValue })) ∧
      (ok → exec (.loadFilters tag a b r) s = .next (({ s with
        uq := { s.uq with acceptA := loaded a, acceptB := loaded b, reject := loaded r } }).answered tag 0x0C
          { status := .ok })))

/-- LOAD_SECTOR_PARAMETERS: the three checks of R171 in their order over the ranges of 11.6, with the failing field of the first
that fails. -/
def Obligations.SectorParametersLoad : Prop :=
  ∀ (s : State) (tag : Byte) (v : List Half), s.commandReady → v.length = 27 →
    let x := v.map BitVec.toNat
    let ranges : List (Nat × Nat) :=
      [(1, 255), (0, 127), (0, 127), (0, 65535), (0, 7), (0, 4), (0, 63), (0, 255), (1, 64), (1, 1023), (0, 16), (1, 16),
        (0, 32), (0, 4095), (0, 4095), (0, 255), (0, 63), (1, 2047), (1, 127), (1, 63), (1, 255), (1, 7), (8, 1023),
        (1, 32), (1, 32), (1, 8), (100, 65535)]
    let inRange (i : Nat) := (ranges.getD i (0, 0)).1 ≤ x.getD i 0 ∧ x.getD i 0 ≤ (ranges.getD i (0, 0)).2
    let refused (field : Nat) : State := s.answered tag 0x0D { status := .badValue, failing := field }
    (s.si.mode ≠ .config →
      exec (.loadSectorParameters tag v) s = .next (s.answered tag 0x0D { status := .badMode })) ∧
    (s.si.mode = .config →
      (∀ i, i < 27 → (∀ j, j < i → inRange j) → ¬ inRange i →
        exec (.loadSectorParameters tag v) s = .next (refused (i + 1))) ∧
      ((∀ i, i < 27 → inRange i) →
        (x.getD 9 0 < x.getD 8 0 → exec (.loadSectorParameters tag v) s = .next (refused 10)) ∧
        (x.getD 8 0 ≤ x.getD 9 0 → 4096 < x.getD 13 0 + x.getD 10 0 * x.getD 11 0 →
          exec (.loadSectorParameters tag v) s = .next (refused 14)) ∧
        (x.getD 8 0 ≤ x.getD 9 0 → x.getD 13 0 + x.getD 10 0 * x.getD 11 0 ≤ 4096 →
          ∃ p : Params, p.values = x ∧ exec (.loadSectorParameters tag v) s =
            .next (({ s with params := p }).answered tag 0x0D { status := .ok }))))

/-- UNLISTED_READ and UNLISTED_RELEASE (R158, R159). -/
def Obligations.UnlistedReadAndRelease : Prop :=
  ∀ (s : State) (tag : Byte), s.commandReady →
    (s.uq.queue = [] →
      exec (.unlistedRead tag) s = .next (s.answered tag 0x0F { status := .empty }) ∧
      exec (.unlistedRelease tag) s = .next (s.answered tag 0x10 { status := .empty })) ∧
    ∀ e rest, s.uq.queue = e :: rest →
      exec (.unlistedRead tag) s = .next (s.answered tag 0x0F {
        status := .ok
        data := addressBytes e.addr ++ halfBytes e.firstFrame ++ halfBytes e.lastFrame ++ signedHalfOf e.snr ++
          signedHalfOf e.timing ++ [BitVec.ofInt 8 e.power, byteOf e.seen, byteOf (rest.length + 1),
            if s.uq.overrun then 0x01 else 0x00] }) ∧
      exec (.unlistedRelease tag) s = .next (({ s with uq := { s.uq with queue := rest } }).answered tag 0x10
        { status := .ok, data := addressBytes e.addr ++ [byteOf rest.length] })

/-- UNLISTED_CLEAR_OVERRUN, and the next report dropped while the queue is still full (R160). -/
def Obligations.ClearOverrunAsksAgain : Prop :=
  (∀ (s : State) (tag : Byte), s.commandReady → exec (.unlistedClearOverrun tag) s =
    .next (({ s with uq := { s.uq with overrun := false } }).answered tag 0x11 { status := .ok })) ∧
  ∀ (s : State) (b : Burst) (addr : Address), s.usEngine → b.outcome = .good → b.address = some addr →
    s.stationId addr = none → s.accepts addr = true → (∀ e ∈ s.uq.queue, e.addr ≠ addr) →
    s.uq.queue.length = Config.unlistedPlaces → s.uq.overrun = false →
    exec (.contentionReportUnlisted b) s =
      .next (({ s with uq := { s.uq with overrun := true } }).notify .unlistedOverrun none [addr.toNat])

/-- READ_SECTOR reports one moment's picture in its 41 bytes; its acknowledge option clears the four sticky flags and nothing
else (R174, R175, 12.5). Of the event that R17 lets fall between the report and the clearing, which the model
does not show (log 26), nothing is said. -/
def Obligations.ReadSectorAcknowledges : Prop :=
  ∀ (s : State) (tag acknowledge : Byte), s.commandReady →
    let count (p : TState → Bool) : Nat := (s.tt.records.filter fun e => p e.2.state).length
    let perState : List Nat := (255 - s.tt.records.length) ::
      [TState.held, .lost, .polling, .ranging, .admitWait, .confirming, .inService, .fading, .shed].map fun st =>
        count (· == st)
    let bit (b : Bool) (weight : Nat) : Nat := if b then weight else 0
    let sectorBytes : List Byte :=
      [byteOf s.si.mode.code] ++ wordBytes s.si.markerCount ++ halfBytes s.si.frameNumber ++ perState.map byteOf ++
        [byteOf (count (· != .held)), byteOf (count fun st => st == .lost || st == .polling || st == .ranging)] ++
        wordBytes (BitVec.ofNat 32 s.ac.committedSum) ++ halfBytes (BitVec.ofNat 16 s.ac.bEff) ++
        [byteOf s.ac.rawLevel, byteOf s.ac.heldLevel, byteOf s.ac.effLevel,
          byteOf (match s.ac.storm with
            | some st => st.level
            | none => 0)] ++
        halfBytes (match s.ac.storm with
          | some st => BitVec.ofNat 16 st.remaining
          | none => 0) ++
        [byteOf (bit s.ac.staged.isSome 1), byteOf s.uq.queue.length, byteOf (bit s.uq.overrun 1),
          byteOf s.mp.pollsPlaced] ++
        wordBytes (BitVec.ofNat 32 s.mp.reclaimedSlots) ++
        [byteOf s.mu.notices.length, byteOf (bit s.si.sticky.frameLostSeen 1 + bit s.si.sticky.regionViolationSeen 2 +
          bit s.si.sticky.mapMalformedSeen 4 + bit s.si.sticky.noticesDropped 8)]
    (acknowledge = 0 →
      exec (.readSector tag acknowledge) s = .next (s.answered tag 0x12 { status := .ok, data := sectorBytes })) ∧
    (acknowledge = 1 → exec (.readSector tag acknowledge) s = .next (({ s with si := { s.si with
      sticky := { frameLostSeen := false, mapMalformedSeen := false, regionViolationSeen := false,
                  noticesDropped := false } } }).answered tag 0x12 { status := .ok, data := sectorBytes })) ∧
    (2 ≤ acknowledge.toNat →
      exec (.readSector tag acknowledge) s = .next (s.answered tag 0x12 { status := .badValue })) ∧
    sectorBytes.length = 41 ∧ (s.recordsSound → perState.sum = 255)

/-- SET_NOTICE_MASK answers the mask that was in force and leaves the notices already queued (R178). -/
def Obligations.NoticeMaskReplaced : Prop :=
  ∀ (s : State) (tag : Byte) (enables : List Byte), s.commandReady → enables.length = 18 →
    ((∀ e ∈ enables, e = 0 ∨ e = 1) → exec (.setNoticeMask tag enables) s = .next (({ s with
      mu := { s.mu with mask := enables.map (· == 1) } }).answered tag 0x13
        { status := .ok, data := s.mu.mask.map fun (b : Bool) => if b then 0x01 else 0x00 })) ∧
    ((∃ e ∈ enables, e ≠ 0 ∧ e ≠ 1) →
      exec (.setNoticeMask tag enables) s = .next (s.answered tag 0x13 { status := .badValue }))

/-- SECTOR_RESET through its seven steps, each step on its own, SI's as the cell is taken (R13, R35, R36, R119, R140, R162,
R172, R176), and the answer it first gives to the command it aborts (R49, R167, R169). Through which step the row goes, with
nothing else taken between, is the model's operand (log 12). -/
def Obligations.SectorResetCompletes : Prop :=
  (∀ (s : State) (tag : Byte), s.commandReady → exec (.sectorReset tag 7) s = .next (({ s with
    si := { mode := .config, markerCount := 0, frameNumber := s.si.frameNumber, watchdog := none
            sticky := { frameLostSeen := false, mapMalformedSeen := false, regionViolationSeen := false,
                        noticesDropped := false } }
    tt := { s.tt with records := s.tt.records.map fun (e : Nat × Record) => (e.1,
      if e.2.state = TState.held then
        { e.2 with message := none, cancelReq := false, outageStart := none
                   outstanding := if s.si.mode = Mode.run then none else e.2.outstanding }
      else { e.2 with
        state := TState.polling, fade := 0, avg := none, profile := 0, holdOff := 0, backoff := 0, probation := 0
        outageStart := none, cancelReq := false, misses := 0, nextEligible := 0, outstanding := none
        keepaliveDue := 0, attempts := 0, holdReq := false, lastTiming := 0, lastPower := 0, cost := 0
        confirmTimer := none, admitTries := 0, message := none, lastReason := .sectorReset }) }
    ac := { s.ac with
      rawLevel := 0, heldLevel := 0, holdCounter := 0, storm := none, banks := s.ac.staged.getD s.ac.banks
      staged := none, effLevel := 0, committedSum := 0, waitList := [], shedNote := []
      bEff := (s.ac.staged.getD s.ac.banks).getD 0 0 - s.params.pMin * s.params.pollLength }
    mp := { pollsPlaced := 0, reclaimedSlots := 0 }
    uq := { s.uq with queue := [], overrun := false }
    mu := { inFlight := none, notices := [], gapPending := false, mask := s.mu.mask } }).answered tag 0x14
      { status := .ok })) ∧
  (∀ (s : State) (tag : Byte), s.commandReady →
    exec (.sectorReset tag 1) s = .next { s.cellRemoved 0 with
      si := { mode := .config, markerCount := 0, frameNumber := s.si.frameNumber, watchdog := none
              sticky := { frameLostSeen := false, mapMalformedSeen := false, regionViolationSeen := false,
                          noticesDropped := false } }
      tt := { s.tt with records := s.tt.records.map fun (e : Nat × Record) =>
        (e.1, { e.2 with outstanding := if s.si.mode = Mode.run then none else e.2.outstanding }) }
      mu := { s.mu with inFlight := some (.sectorReset tag 1) } } ∧
    ∀ n, 1 ≤ n → n ≤ 6 → exec (.sectorReset tag (n + 1)) s = (match exec (.sectorReset tag n) s with
      | .next u => .next u.nextResetStep
      | stop => stop)) ∧
  (∀ (s : State) (tag : Byte) (k : Nat), s.mu.inFlight = some (.sectorReset tag k) →
    let reached (u : State) : State := { u with mu := { u.mu with inFlight := some (.sectorReset tag (k + 1)) } }
    (k = 1 → s.nextResetStep = reached { s with tt := { s.tt with
      records := s.tt.records.map fun (e : Nat × Record) => (e.1,
        if e.2.state = TState.held then { e.2 with message := none, cancelReq := false, outageStart := none }
        else { e.2 with
          state := TState.polling, fade := 0, avg := none, profile := 0, holdOff := 0, backoff := 0, probation := 0
          outageStart := none, cancelReq := false, misses := 0, nextEligible := 0, outstanding := none
          keepaliveDue := 0, attempts := 0, holdReq := false, lastTiming := 0, lastPower := 0, cost := 0
          confirmTimer := none, admitTries := 0, message := none, lastReason := .sectorReset }) } }) ∧
    (k = 2 → s.nextResetStep = reached { s with ac := { s.ac with
      rawLevel := 0, heldLevel := 0, holdCounter := 0, storm := none, banks := s.ac.staged.getD s.ac.banks
      staged := none, effLevel := 0, committedSum := 0, waitList := [], shedNote := []
      bEff := (s.ac.staged.getD s.ac.banks).getD 0 0 - s.params.pMin * s.params.pollLength } }) ∧
    (k = 3 → s.nextResetStep = reached { s with mp := { pollsPlaced := 0, reclaimedSlots := 0 } }) ∧
    (k = 4 → s.nextResetStep = reached { s with uq := { s.uq with queue := [], overrun := false } }) ∧
    (k = 5 → s.nextResetStep = reached { s with mu := { s.mu with notices := [], gapPending := false } }) ∧
    (k = 6 → s.nextResetStep = s.completed tag 0x14 { status := .ok })) ∧
  ∀ (s : State) (tag by' : Byte), s.cellReady → 1 ≤ s.insertion.reserved →
    (∀ es k, s.mu.inFlight = some (.loadTerminals by' es k) → exec (.sectorReset tag 7) s =
      exec (.sectorReset tag 7)
        (s.completed by' 0x02 { status := .aborted, failing := k + 1, remaining := es.length - k })) ∧
    (∀ t k, s.mu.inFlight = some (.loadProfiles by' t k) → exec (.sectorReset tag 7) s =
      exec (.sectorReset tag 7) ((s.installProfiles t k).completed by' 0x09 { status := .aborted })) ∧
    (∀ k, s.mu.inFlight = some (.runEntry by' k) → exec (.sectorReset tag 7) s =
      exec (.sectorReset tag 7) (s.completed by' 0x01 { status := .aborted }))

/-! ## Reports LM counts -/

/-- A DATA or REPORT burst report for no committed terminal is forwarded with no effect; a failed one for a committed
terminal counts on the fade counter, with the loss, the warning and FADING entry that follow (R38 to R41, R43). -/
def Obligations.FailedReportCounts : Prop :=
  ∀ (s : State) (kind : GrantKind) (b : Burst), s.usEngine → s.recordsSound →
    let id := b.id.toNat
    let forwarded (u : State) : State := u.readyUs (UsItem.burst kind b).bytes false
    ((∀ r, s.record? id = some r → r.state ≠ .confirming ∧ r.state ≠ .inService ∧ r.state ≠ .fading) →
      exec (.burstReport kind b) s = .next (forwarded s)) ∧
    ∀ r, s.record? id = some r → r.state = .confirming ∨ r.state = .inService ∨ r.state = .fading → b.outcome ≠ .good →
      let fade := r.fade + (if b.outcome = .crcBad then 4 else 8)
      let warned (u : State) : State :=
        if r.fade ≤ s.params.warningLimit ∧ s.params.warningLimit < fade then u.notify .fadeWarning (some id) [fade] else u
      (255 < fade → exec (.burstReport kind b) s = .next (forwarded (s.lose .fade id))) ∧
      (fade ≤ 255 → (r.state ≠ .inService ∨ fade ≤ 127) →
        exec (.burstReport kind b) s = .next (forwarded (warned (s.put id { r with fade := fade })))) ∧
      (fade ≤ 255 → r.state = .inService → 127 < fade →
        let target := highestProfile s.lm.profiles (min r.profile s.params.fadeProfile) fun _ => true
        let entered := (warned (s.put id { r with fade := fade, state := .fading })).notify .fadingEntered (some id)
          [fade, target]
        exec (.burstReport kind b) s =
          .next (forwarded (if target < r.profile then entered.changeProfile id target else entered)))

/-- A profile change of a committed terminal: the message, the cost, the committed sum, the notice, and the shed check when
the cost rises (R54, R55, R120). -/
def Obligations.ProfileChangeConsequences : Prop :=
  ∀ (s : State) (id p : Nat) (r : Record), s.recordsSound → s.record? id = some r →
    s.changeProfile id r.profile = s ∧
    (p ≠ r.profile →
      let e := profileAt s.lm.profiles p
      let cost := e.overhead + (r.load + e.capacity - 1) / e.capacity
      let told := State.notify (State.put { s with ac := { s.ac with committedSum := s.ac.committedSum + cost - r.cost } } id
        { r with profile := p, cost := cost
                 message := if r.state = .confirming ∧ r.message = some .admitMsg then some .admitMsg else some .profileSet })
        .profileChanged (some id) [r.profile, p, cost]
      s.changeProfile id p = if r.cost < cost then told.shedCheck false else told)

/-- The shed of one terminal: its cost, its record, TERMINAL_SHED with the cost freed, and its place on the wait list. The shed
check takes victims in victim order, one after another, ends as soon as the committed sum is at or below B_eff, and leaves every
other record and block (R125, R126, R127). -/
def Obligations.ShedCheckEndsWithinBudget : Prop :=
  ∀ (s : State) (noted : Bool), s.recordsSound → s.accountsSound →
    let t := s.shedCheck noted
    let shedFrom (id : Nat) (r : Record) : Prop :=
      t.record? id = some { r with cost := 0, state := .shed, keepaliveDue := s.si.markerCount, confirmTimer := none
                                   admitTries := 0, message := some .suspend, sheds := r.sheds + 1 }
    (∀ id r, s.record? id = some r →
      let shed : State := State.put { s with ac := { s.ac with committedSum := s.ac.committedSum - r.cost } } id
        { r with cost := 0, state := .shed, keepaliveDue := s.si.markerCount, confirmTimer := none, admitTries := 0
                 message := some .suspend, sheds := r.sheds + 1 }
      let told := shed.notify .terminalShed (some id) [r.cost]
      s.shedTerminal noted id = { told with ac := { told.ac with
        waitList := insertBy s.outranks id s.ac.waitList
        shedNote := if noted then s.ac.shedNote ++ [id] else s.ac.shedNote } }) ∧
    (∃ (victims : List Nat) (k : Nat), victims.Pairwise (fun a b => s.outranks b a = true) ∧
      (∀ id, id ∈ victims ↔ ∃ r, s.record? id = some r ∧ r.state.committed = true ∧ 0 < r.cost) ∧
      k ≤ victims.length ∧
      t = (victims.take k).foldl (fun v id => v.shedTerminal noted id) s ∧
      ∀ j, j < k → s.ac.bEff < ((victims.take j).foldl (fun v id => v.shedTerminal noted id) s).ac.committedSum) ∧
    t.ac.committedSum ≤ t.ac.bEff ∧ (s.ac.committedSum ≤ s.ac.bEff → t = s) ∧ t.ids = s.ids ∧ t.accountsSound ∧
    (∀ id r, s.record? id = some r → t.record? id = some r ∨
      (r.state.committed = true ∧ 0 < r.cost ∧ shedFrom id r ∧ id ∈ t.ac.waitList)) ∧
    (∀ a ra b rb, s.record? a = some ra → s.record? b = some rb → shedFrom a ra → t.record? b = some rb →
      rb.state.committed = true → 0 < rb.cost → s.outranks b a = true) ∧
    t.ac.bEff = s.ac.bEff ∧ t.ac.effLevel = s.ac.effLevel ∧ t.si.mode = s.si.mode ∧
    t.si.markerCount = s.si.markerCount ∧ t.tt.stationMap = s.tt.stationMap ∧ t.paths = s.paths ∧
    t.insertion = s.insertion ∧ t.lm = s.lm ∧ t.mp = s.mp ∧ t.uq = s.uq ∧ t.ot = s.ot ∧ t.params = s.params ∧
    t.mu.inFlight = s.mu.inFlight ∧ t.pending = s.pending

/-- A GOOD DATA or REPORT burst report: the fade counter, FADING exit, confirmation with its restoration accounting, the
average and selection, in the order of R43 (R39, R42, R43, R45, R67, R136). -/
def Obligations.GoodReportStages : Prop :=
  ∀ (s : State) (kind : GrantKind) (b : Burst) (r : Record), s.usEngine → s.recordsSound → b.outcome = .good →
    s.record? b.id.toNat = some r →
    let id := b.id.toNat
    let avg := some (averaged s.params.snrShift r.avg b.snr.toInt)
    let forwarded (u : State) (q : Record) : State :=
      (u.changeProfile id (selected s.lm.profiles s.params.upgradeHysteresis q)).readyUs (UsItem.burst kind b).bytes false
    (r.state = .inService →
      let q : Record := { r with fade := r.fade - 1, avg := avg }
      exec (.burstReport kind b) s = .next (forwarded (s.put id q) q)) ∧
    (r.state = .fading → s.params.fadeExit < r.fade - 1 →
      let q : Record := { r with fade := r.fade - 1, avg := avg }
      exec (.burstReport kind b) s = .next (forwarded (s.put id q) q)) ∧
    (r.state = .fading → r.fade - 1 ≤ s.params.fadeExit →
      let q : Record := { r with fade := r.fade - 1, avg := avg, state := .inService }
      exec (.burstReport kind b) s =
        .next (forwarded ((s.put id q).notify .fadingCleared (some id) [((r.fade - 1 : Nat) : Int)]) q)) ∧
    (r.state = .confirming →
      let outage : Nat := match r.outageStart with
        | some start => min 65535 (s.si.markerCount - start).toNat
        | none => 0
      let q : Record := { r with
        state := .inService, fade := s.params.probationStart, confirmTimer := none, avg := avg
        message := if r.message = some .admitMsg then none else r.message
        lastOutage := if r.outageStart.isSome then outage else r.lastOutage
        outageStart := none, restorations := r.restorations + 1, probation := s.params.probationLength
        backoff := if s.params.probationLength = 0 then r.backoff - 1 else r.backoff }
      exec (.burstReport kind b) s =
        .next (forwarded ((s.put id q).notify .terminalRestored (some id) [outage, q.backoff]) q))

/-- Averaging of one SNR sample (R45). -/
def Obligations.AveragingOfOneSample : Prop :=
  ∀ (k : Nat) (avg : Option Int) (x : Int),
    let sample := max (-40) (min 160 x)
    let next := averaged k avg x
    (avg = none → next = sample * 16) ∧
    (∀ a, avg = some a → next = a + Int.fdiv (sample * 16 - a) (2 ^ k) ∧
      min a (sample * 16) ≤ next ∧ next ≤ max a (sample * 16)) ∧
    ((∀ a, avg = some a → -640 ≤ a ∧ a ≤ 2560) → -640 ≤ next ∧ next ≤ 2560 ∧
      selectionValue next = Int.fdiv next 16 ∧ -40 ≤ selectionValue next ∧ selectionValue next ≤ 160)

/-- Selection on the average: the downgrade test first, the upgrade test where it changes nothing and the terminal is not
FADING; below T(P0) a terminal on P0 stays there, in a table that passes the checks of R48 and wherever no profile fits (R51,
R52, R53). What it gives for an assigned profile that is disabled is the model's choice (log 19). -/
def Obligations.SelectionFollowsAverage : Prop :=
  ∀ (t : List ProfileEntry) (hysteresis : Nat) (r : Record) (avg : Int), (profileAt t 0).enabled = true →
    r.avg = some avg →
    let v := selectionValue avg
    let p := selected t hysteresis r
    let fits (bound : Int) (q : Nat) : Prop :=
      q ≤ r.ceiling ∧ (profileAt t q).enabled = true ∧ (profileAt t q).threshold ≤ bound
    (∀ down, v < (profileAt t r.profile).threshold → (fits v down ∨ (down = 0 ∧ ∀ q, ¬ fits v q)) →
      (∀ q, fits v q → q ≤ down) → down ≠ r.profile → p = down) ∧
    (r.profile = 0 → v < (profileAt t 0).threshold → (tableSound t ∨ ∀ q, ¬ fits v q) → p = 0) ∧
    ((profileAt t r.profile).threshold ≤ v → r.state = .fading → p = r.profile) ∧
    ((profileAt t r.profile).threshold ≤ v → r.state ≠ .fading →
      (∀ up, fits (v - hysteresis) up → (∀ q, fits (v - hysteresis) q → q ≤ up) → p = max r.profile up) ∧
      ((∀ q, ¬ fits (v - hysteresis) q) → p = r.profile))

/-! ## Polls and ranging -/

/-- POLL reports in RUN: matched against the outstanding poll, and judged for POLLING and RANGING terminals (R83, R84, R85,
R88, R93). The measurement is the report's outcome with the signed readings of its fields (12.3). -/
def Obligations.PollReportsAreMatched : Prop :=
  (∀ b : Burst, measurementOf b =
    { outcome := b.outcome, snr := b.snr.toInt, timing := b.timing.toInt, power := b.power.toInt }) ∧
  ∀ (s : State) (b : Burst), s.usEngine → s.recordsSound →
    let id := b.id.toNat
    let now := s.si.markerCount
    (s.record? id = none → exec (.pollReport b) s = .next s) ∧
    ∀ r, s.record? id = some r →
      ((r.state ≠ .polling ∧ r.state ≠ .ranging ∧ r.state ≠ .shed) ∨ r.outstanding ≠ some b.frame →
        exec (.pollReport b) s = .next s) ∧
      (r.outstanding = some b.frame →
        (r.state = .polling → b.outcome = .missed →
          let m := min 255 (r.misses + 1)
          exec (.pollReport b) s = .next (s.put id { r with
            outstanding := none, misses := m, pollMisses := r.pollMisses + 1
            nextEligible := now + BitVec.ofNat 32 (min (s.params.pollBase * 2 ^ min m 6) s.params.pollMax) })) ∧
        (r.state = .polling → b.outcome = .crcBad → exec (.pollReport b) s =
          .next (s.put id { r with outstanding := none, nextEligible := now + BitVec.ofNat 32 s.params.pollBase })) ∧
        (r.state = .polling → b.outcome = .good → exec (.pollReport b) s =
          .next ((s.put id { r with outstanding := none, state := .ranging, attempts := 0 }).measure id
            (measurementOf b))) ∧
        (r.state = .ranging → exec (.pollReport b) s =
          .next ((s.put id { r with outstanding := none }).measure id (measurementOf b))))

/-- One ranging measurement: the attempt counted or the exchange failed, the correction, and the end of the exchange in
ADMIT_WAIT or HELD (R31, R94, R95, R96, R97). -/
def Obligations.RangingMeasurement : Prop :=
  ∀ (s : State) (id : Nat) (r : Record) (m : Measurement), s.recordsSound → s.record? id = some r →
    let t := max (-2048) (min 2047 m.timing)
    let p := max (-128) (min 127 m.power)
    let avg := averaged s.params.snrShift r.avg m.snr
    let heard := { r with avg := some avg, lastTiming := t, lastPower := p }
    let near := (t.natAbs ≤ s.params.timingTolerance ∧ p.natAbs ≤ s.params.powerTolerance)
    let step (tolerance maxStep : Nat) (x : Int) : Int :=
      if x.natAbs ≤ tolerance then 0 else max (-maxStep) (min maxStep (-x))
    (m.outcome ≠ .good → r.attempts < s.params.rangingMaxAttempts →
      s.measure id m = s.put id { r with attempts := r.attempts + 1 }) ∧
    (m.outcome ≠ .good → s.params.rangingMaxAttempts ≤ r.attempts → s.measure id m = s.lose .rangingFailed id) ∧
    (m.outcome = .good → ¬ near → r.attempts < s.params.rangingMaxAttempts →
      s.measure id m = s.put id { heard with
        attempts := r.attempts + 1
        message := some (.rangeAdjust (step s.params.timingTolerance s.params.maxTimingStep t)
          (step s.params.powerTolerance s.params.maxPowerStep p)) }) ∧
    (m.outcome = .good → ¬ near → s.params.rangingMaxAttempts ≤ r.attempts →
      s.measure id m = (s.put id heard).lose .rangingFailed id) ∧
    (m.outcome = .good → near →
      let profile := highestProfile s.lm.profiles (effectiveCeiling s.lm.profiles r) fun e =>
        e.threshold ≤ selectionValue avg
      (r.holdReq = false →
        let u := s.put id { heard with
          profile := profile, attempts := 0, state := .admitWait
          message := match r.message with
            | some (.rangeAdjust _ _) => none
            | other => other }
        s.measure id m = { u with ac := { u.ac with waitList := insertBy u.outranks id s.ac.waitList } }) ∧
      (r.holdReq = true →
        s.measure id m = (s.put id { heard with
          profile := profile, attempts := 0, state := .held, holdReq := false, message := none }).notify .holdGranted
            (some id) [TState.ranging.code]))

/-- A matched POLL report for a SHED terminal: the keepalive due, then the fade counter, the average and silent selection
(R39, R40, R44, R53, R86). Whether silent selection follows an outcome that is not GOOD is left open (log 3). -/
def Obligations.KeepaliveOutcomes : Prop :=
  ∀ (s : State) (b : Burst) (r : Record), s.usEngine → s.recordsSound → s.record? b.id.toNat = some r →
    r.state = .shed → r.outstanding = some b.frame →
    let id := b.id.toNat
    let kept := { r with outstanding := none
                         keepaliveDue := s.si.markerCount + BitVec.ofNat 32 s.params.keepaliveInterval }
    let chosen (q : Record) : Record := { q with profile := selected s.lm.profiles s.params.upgradeHysteresis q }
    (b.outcome = .good → exec (.pollReport b) s = .next (s.put id (chosen { kept with
      fade := r.fade - 1, avg := some (averaged s.params.snrShift r.avg b.snr.toInt) }))) ∧
    (b.outcome ≠ .good →
      let fade := r.fade + (if b.outcome = .crcBad then 4 else 8)
      (255 < fade → exec (.pollReport b) s = .next ((s.put id kept).lose .fade id)) ∧
      (fade ≤ 255 → ∃ q, (q = { kept with fade := fade } ∨ q = chosen { kept with fade := fade }) ∧
        exec (.pollReport b) s = .next (
          if r.fade ≤ s.params.warningLimit ∧ s.params.warningLimit < fade
          then (s.put id q).notify .fadeWarning (some id) [fade] else s.put id q)))

/-- The end of frame n in RUN judges the terminals in ascending ID order: every outstanding poll of frame n or earlier is
cleared and judged MISSED, with a miss counted, an attempt counted or the exchange failed, or a keepalive missed; every other
record stays as it was, and the report is forwarded (R44, R85, R86, R87, R90, R97). Whether a missed keepalive is followed by silent
selection is left open (log 3). -/
def Obligations.EndOfFrameJudgesPolls : Prop :=
  ∀ (s : State) (n : FrameNumber) (tail : List Byte), s.usEngine → s.recordsSound →
    let missed (r : Record) : Record :=
      let m := min 255 (r.misses + 1)
      { r with outstanding := none, misses := m, pollMisses := r.pollMisses + 1
               nextEligible := s.si.markerCount +
                 BitVec.ofNat 32 (min (s.params.pollBase * 2 ^ min m 6) s.params.pollMax) }
    let kept (r : Record) : Record :=
      { r with outstanding := none
               keepaliveDue := s.si.markerCount + BitVec.ofNat 32 s.params.keepaliveInterval }
    let silent (select : Bool) (r : Record) : Record :=
      if select then { r with profile := selected s.lm.profiles s.params.upgradeHysteresis r } else r
    let judge (select : Bool) (u : State) (id : Nat) : State :=
      match u.record? id with
      | none => u
      | some r =>
        match r.outstanding with
        | none => u
        | some f =>
          if 32767 < (n - f).toNat then u
          else if r.state = .polling then u.put id (missed r)
          else if r.state = .ranging then
            if r.attempts < s.params.rangingMaxAttempts then
              u.put id { r with outstanding := none, attempts := r.attempts + 1 }
            else (u.put id { r with outstanding := none }).lose .rangingFailed id
          else if r.state = .shed then
            if 255 < r.fade + 8 then (u.put id (kept r)).lose .fade id
            else if r.fade ≤ s.params.warningLimit ∧ s.params.warningLimit < r.fade + 8 then
              (u.put id (silent select { kept r with fade := r.fade + 8 })).notify .fadeWarning (some id) [r.fade + 8]
            else u.put id (silent select { kept r with fade := r.fade + 8 })
          else u.put id { r with outstanding := none }
    ∃ (t : State) (select : Bool), t = s.ids.foldl (judge select) s ∧
      exec (.endOfFrameReport n tail) s = .next (t.readyUs (UsItem.endOfFrame n tail).bytes true) ∧
      t.ids = s.ids ∧ t.si.mode = s.si.mode ∧ t.si.markerCount = s.si.markerCount ∧ t.paths = s.paths ∧ t.mp = s.mp ∧
      t.lm = s.lm ∧ t.uq = s.uq ∧ t.params = s.params ∧ t.insertion = s.insertion ∧
      t.tt.stationMap = s.tt.stationMap ∧
      ∀ id r, s.record? id = some r →
        ((∀ f, r.outstanding = some f → 32767 < (n - f).toNat) → t.record? id = some r) ∧
        ∀ f, r.outstanding = some f → (n - f).toNat ≤ 32767 →
          (t.record? id).map (·.outstanding) = some none ∧
          (r.state = .polling → t.record? id = some (missed r)) ∧
          (r.state = .ranging → r.attempts < s.params.rangingMaxAttempts →
            t.record? id = some { r with outstanding := none, attempts := r.attempts + 1 }) ∧
          (r.state = .ranging → s.params.rangingMaxAttempts ≤ r.attempts →
            t.record? id = ((s.put id { r with outstanding := none }).lose .rangingFailed id).record? id) ∧
          (r.state = .shed → r.fade + 8 ≤ 255 →
            t.record? id = some (silent select { kept r with fade := r.fade + 8 })) ∧
          (r.state = .shed → 255 < r.fade + 8 →
            t.record? id = ((s.put id (kept r)).lose .fade id).record? id) ∧
          (r.state ≠ .polling → r.state ≠ .ranging → r.state ≠ .shed →
            t.record? id = some { r with outstanding := none })

/-! ## Contention -/

/-- A GOOD contention report from a listed station. One that names a HELD terminal is consumed with no effect (R103); that the
row for unlisted stations is the same arrival, and has the same outcome, is the model's choice (log 17). For any other: the
entry into RANGING, the further measurement, or the loss with reason REBOOTED, with the report as a measurement, the signed
readings of its fields (R93, R99 to R102, 12.3). The station is listed where the Station Map holds its address, and its ID is
the one the map pairs with it (R22). -/
def Obligations.ContentionFromListedStation : Prop :=
  (∀ (s : State) (addr : Address) (id : Nat), s.stationMapSound →
    (s.stationId addr = some id ↔ (id, addr) ∈ s.tt.stationMap)) ∧
  (∀ b : Burst, measurementOf b =
    { outcome := b.outcome, snr := b.snr.toInt, timing := b.timing.toInt, power := b.power.toInt }) ∧
  (∀ (s : State) (b : Burst) (addr : Address) (id : Nat) (r : Record), s.usEngine → b.outcome = .good →
    b.address = some addr → s.stationId addr = some id → s.record? id = some r → r.state = .held →
    exec (.contentionReportListed b) s = .next s ∧ exec (.contentionReportUnlisted b) s = .next s) ∧
  ∀ (s : State) (b : Burst) (addr : Address) (id : Nat) (r : Record), s.usEngine → s.recordsSound → b.outcome = .good →
    b.address = some addr → s.stationId addr = some id → s.record? id = some r →
    (r.state = .lost ∨ r.state = .polling → exec (.contentionReportListed b) s =
      .next ((s.put id { r with holdOff := 0, outstanding := none, state := .ranging, attempts := 0 }).measure id
        (measurementOf b))) ∧
    (r.state = .ranging → exec (.contentionReportListed b) s =
      .next ((s.put id { r with outstanding := none }).measure id (measurementOf b))) ∧
    (r.state = .admitWait ∨ r.state = .confirming ∨ r.state = .inService ∨ r.state = .fading ∨ r.state = .shed →
      exec (.contentionReportListed b) s = .next ((s.lose .rebooted id).measure id (measurementOf b)))

/-- Contention reports from unlisted stations: not GOOD, not accepted, already queued, new, and turned away (R4, R151 to
R156). A station is unlisted where no entry of the Station Map holds its address (R22). -/
def Obligations.UnlistedStationsAreScreened : Prop :=
  (∀ (s : State) (addr : Address), s.stationId addr = none ↔ ∀ id, (id, addr) ∉ s.tt.stationMap) ∧
  (∀ (s : State) (addr : Address) (id : Nat), s.stationMapSound →
    (s.stationId addr = some id ↔ (id, addr) ∈ s.tt.stationMap)) ∧
  ∀ (s : State) (b : Burst), s.usEngine →
    (b.outcome ≠ .good → exec (.contentionReportUnlisted b) s = .next s) ∧
    ∀ addr, b.outcome = .good → b.address = some addr → s.stationId addr = none →
      let hit (f : Filter) : Prop := f.enabled = true ∧ (addr ^^^ f.code) &&& ~~~f.mask = 0
      let accepted := addr ≠ 0 ∧ (hit s.uq.acceptA ∨ hit s.uq.acceptB) ∧ ¬ hit s.uq.reject
      let snr := max (-40) (min 160 b.snr.toInt)
      let timing := max (-2048) (min 2047 b.timing.toInt)
      (¬ accepted → exec (.contentionReportUnlisted b) s = .next s) ∧
      (accepted →
        ((∃ e ∈ s.uq.queue, e.addr = addr) → exec (.contentionReportUnlisted b) s = .next { s with uq := { s.uq with
          queue := s.uq.queue.map fun e => if e.addr = addr
            then { e with lastFrame := b.frame, snr := snr, timing := timing, power := b.power.toInt
                          seen := min 255 (e.seen + 1) }
            else e } }) ∧
        ((∀ e ∈ s.uq.queue, e.addr ≠ addr) →
          (s.uq.queue.length < 16 → exec (.contentionReportUnlisted b) s =
            .next (State.notify { s with uq := { s.uq with queue := s.uq.queue ++
                [{ addr := addr, firstFrame := b.frame, lastFrame := b.frame, snr := snr, timing := timing
                   power := b.power.toInt, seen := 1 }] } } .unlistedArrived none
              [addr.toNat, s.uq.queue.length + 1, snr])) ∧
          (16 ≤ s.uq.queue.length → s.uq.overrun = true → exec (.contentionReportUnlisted b) s = .next s)))

/-! ## Maps, control sections and markers in RUN -/

/-- A map in RUN: a malformed one is forwarded unedited and reported; any other is edited, its overlapping entries reported,
the outstanding polls and the two figures set, and forwarded (R8, R73, R74, R76, R81, R82). MapEditListsAndPairs says which
entries are kept and stripped, and which polls are placed. -/
def Obligations.MapArrivesInRun : Prop :=
  ∀ (s : State) (frame : FrameNumber) (count : Byte) (body : List Byte), s.dsReady → s.si.mode = .run →
    (128 < count.toNat ∨ body.length ≠ 6 * count.toNat →
      exec (.map frame count body) s = .next
        (State.offerDs (State.setMapMalformedSeen (s.notify .mapMalformed none [count.toNat]))
          (itemBytes 0x02 (halfBytes frame ++ count :: body)))) ∧
    (count.toNat ≤ 128 → body.length = 6 * count.toNat →
      let es := readMapEntries body
      let polled := (s.placements es).map (·.1)
      let edited : State := { s with
        tt := { s.tt with records := s.tt.records.map fun (e : Nat × Record) =>
          (e.1, { e.2 with outstanding := if e.1 ∈ polled then some frame else e.2.outstanding }) }
        mp := { pollsPlaced := (s.placements es).length
                reclaimedSlots := ((s.strippedEntries es).map fun (e : MapEntry) =>
                  min (e.start.toNat + e.length.toNat) 4096 - e.start.toNat).sum } }
      let reported : State := match es.filter (overlapsRegion s.params) with
        | [] => edited
        | e :: rest => (edited.notify .regionViolation none [(e :: rest).length, e.start.toNat]).setRegionViolationSeen
      exec (.map frame count body) s = .next (reported.offerDs (itemBytes 0x02
        (halfBytes frame ++ byteOf (s.editedEntries es).length :: (s.editedEntries es).flatMap MapEntry.bytes))))

/-- What the stages of the map-arrival operation list: the entries that overlap the reserved region, those kept and those
stripped; the reclaimed spans by start, equal starts in map order; the candidates in their three groups, each in priority order;
the reserved positions, then those of the spans' pieces that are not passed over, up to P_extra_max; and the polls, each candidate
paired with the next usable position until one of the two, or the map's 128 entries, run out (R74 to R81). -/
def Obligations.MapEditListsAndPairs : Prop :=
  ∀ (s : State) (es : List MapEntry), s.recordsSound → s.paramsSound →
    let p := s.params
    let kept := s.keptEntries es
    let stripped := s.strippedEntries es
    let spans := s.reclaimedSpans es
    let covers (start length slot : Nat) : Prop := start ≤ slot ∧ slot < start + length
    let reserved := (List.range p.pMin).map fun i => p.regionStart + i * p.pollLength
    let pieces := spans.flatMap fun x => (List.range (x.2 / p.pollLength)).map fun i => x.1 + i * p.pollLength
    let extra := pieces.foldl (fun listed piece =>
      if listed.length < p.pExtraMax ∧ pieceFree p kept (reserved ++ listed) piece = true then listed ++ [piece]
      else listed) []
    let span (e : MapEntry) : Nat × Nat := (e.start.toNat, min (e.start.toNat + e.length.toNat) 4096 - e.start.toNat)
    (∀ e : MapEntry, (overlapsRegion p e = true ↔ ∃ slot,
      covers p.regionStart (p.pMin * p.pollLength) slot ∧ covers e.start.toNat e.length.toNat slot) ∧
      (s.keepsEntry e = true ↔ e.kind ≠ 0x02 ∧ (e.kind = 0x00 ∨ e.kind = 0x01 →
        ∃ r, s.record? e.id.toNat = some r ∧ (r.state = .confirming ∨ r.state = .inService ∨ r.state = .fading)))) ∧
    kept = (es.filter fun e => !overlapsRegion p e).filter s.keepsEntry ∧
    stripped = (es.filter fun e => !overlapsRegion p e).filter (fun e => !s.keepsEntry e) ∧
    (spans.Pairwise (fun a b => a.1 ≤ b.1) ∧
      ∀ start, spans.filter (·.1 = start) = (stripped.map span).filter (·.1 = start)) ∧
    (∃ ranging polling shed : List Nat, s.candidates = ranging ++ polling ++ shed ∧
      ranging.Pairwise (fun a b => s.outranks a b = true) ∧ polling.Pairwise (fun a b => s.outranks a b = true) ∧
      shed.Pairwise (fun a b => s.outranks a b = true) ∧
      (∀ id, id ∈ ranging ↔ ∃ r, s.record? id = some r ∧ r.state = .ranging ∧ r.outstanding = none) ∧
      (∀ id, id ∈ polling ↔ ∃ r, s.record? id = some r ∧ r.state = .polling ∧ r.outstanding = none ∧
        (s.si.markerCount - r.nextEligible).toNat < 2 ^ 31) ∧
      ∀ id, id ∈ shed ↔ ∃ r, s.record? id = some r ∧ r.state = .shed ∧ r.outstanding = none ∧
        (s.si.markerCount - r.keepaliveDue).toNat < 2 ^ 31) ∧
    (∀ (listed : List Nat) (piece : Nat), pieceFree p kept listed piece = true ↔ piece ≤ p.latestPollStart ∧
      ∀ slot, covers piece p.pollLength slot → (∀ e ∈ kept, ¬ covers e.start.toNat e.length.toNat slot) ∧
        ∀ q ∈ listed, ¬ covers q p.pollLength slot) ∧
    s.positions es = reserved ++ extra ∧
    s.placements es = (s.candidates.zip ((s.positions es).filter (· ≤ p.latestPollStart))).take (128 - kept.length)

/-- What an edited map may hold: no entry in the reserved region but polls, grants to committed terminals alone, at most 128
entries, at most one poll per terminal, each for a candidate in its order, none after the latest poll start, and no two
polls, nor a poll and a kept entry, on one slot (R74, R75, R77 to R81). -/
def Obligations.EditedMapLaws : Prop :=
  ∀ (s : State) (es : List MapEntry), s.recordsSound → s.paramsSound → es.length ≤ 128 →
    let kept := s.keptEntries es
    let polls := (s.placements es).map (pollEntry s.params)
    let apart (a b : MapEntry) : Prop := ∀ slot, ¬ ((a.start.toNat ≤ slot ∧ slot < a.start.toNat + a.length.toNat) ∧
      b.start.toNat ≤ slot ∧ slot < b.start.toNat + b.length.toNat)
    s.editedEntries es = kept ++ polls ∧ kept.Sublist es ∧ (kept ++ polls).length ≤ 128 ∧
    (∀ e ∈ kept, e.kind ≠ 0x02 ∧ (e.kind = 0x00 ∨ e.kind = 0x01 →
      ∃ r, s.record? e.id.toNat = some r ∧ (r.state = .confirming ∨ r.state = .inService ∨ r.state = .fading))) ∧
    (∀ e ∈ kept, ∀ slot, s.params.regionStart ≤ slot →
      slot < s.params.regionStart + s.params.pMin * s.params.pollLength →
      ¬ (e.start.toNat ≤ slot ∧ slot < e.start.toNat + e.length.toNat)) ∧
    (polls.map (·.id)).Nodup ∧ polls.length ≤ s.params.pMin + s.params.pExtraMax ∧
    (s.placements es).map (·.1) <+: s.candidates ∧
    (∀ e ∈ polls, e.kind = 0x02 ∧ e.start.toNat ≤ s.params.latestPollStart ∧ e.length.toNat = s.params.pollLength ∧
      ∃ r, s.record? e.id.toNat = some r ∧ r.outstanding = none ∧
        (r.state = .ranging ∨
          (r.state = .polling ∧ (s.si.markerCount - r.nextEligible).toNat < 2 ^ 31) ∨
          (r.state = .shed ∧ (s.si.markerCount - r.keepaliveDue).toNat < 2 ^ 31))) ∧
    polls.Pairwise apart ∧ ∀ p ∈ polls, ∀ e ∈ kept, apart p e

/-- A control section in RUN: the pending messages of the first terminals in priority order are appended, within the offered
places, M and the length field, each laid out as in 12.2 with the record's values at emission; their slots become absent, and
an ADMIT starts its confirm timer (R145, R146, R147). -/
def Obligations.SectionFilledInPriority : Prop :=
  ∀ (s : State) (offered : Byte) (messages : List Byte), s.dsReady → s.si.mode = .run → s.recordsSound →
    let ids := s.messageOrder.take (min (min offered.toNat 32) s.params.messageBudget)
    let half (w : Half) : List Byte := [w.extractLsb' 8 8, w.extractLsb' 0 8]
    let named (code : Byte) (id : Nat) (r : Record) : List Byte :=
      [code, BitVec.ofNat 8 id, r.addr.extractLsb' 40 8, r.addr.extractLsb' 32 8, r.addr.extractLsb' 24 8,
        r.addr.extractLsb' 16 8, r.addr.extractLsb' 8 8, r.addr.extractLsb' 0 8]
    let layout (id : Nat) (r : Record) (m : Message) : List Byte := match m with
      | .rangeAdjust timing power => named 0x61 id r ++ BitVec.ofInt 8 power :: half (BitVec.ofInt 16 timing)
      | .admitMsg => named 0x62 id r ++ [BitVec.ofNat 8 r.profile]
      | .profileSet => named 0x63 id r ++ [BitVec.ofNat 8 r.profile]
      | .suspend => named 0x64 id r
    let text (l : List Nat) : List Byte := l.flatMap fun id => match s.record? id with
      | some r => (r.message.map (layout id r)).getD []
      | none => []
    (∀ id, id ∈ s.messageOrder ↔ ∃ r m, s.record? id = some r ∧ r.message = some m) ∧
    s.messageOrder.Pairwise (fun a b => s.outranks a b = true) ∧
    ∃ n, n ≤ ids.length ∧ (n = 0 ∨ 4 + messages.length + (text (ids.take n)).length ≤ 65535) ∧
      (n < ids.length → 65535 < 4 + messages.length + (text (ids.take (n + 1))).length) ∧
      exec (.controlSection offered messages) s = .next (State.offerDs { s with
        tt := { s.tt with records := s.tt.records.map fun (e : Nat × Record) => (e.1,
          if e.1 ∈ ids.take n then { e.2 with
            message := none
            confirmTimer := if e.2.message = some .admitMsg then some s.params.confirmTimeout else e.2.confirmTimer }
          else e.2) } } (0x03 :: (half (BitVec.ofNat 16 (4 + messages.length + (text (ids.take n)).length)) ++
            offered :: (messages ++ text (ids.take n)))))

/-- A marker taken in RUN: the count, the frame number and the watchdog; then OT's three stages and AC's four, carried out one
after another in some order that keeps each block's own, with nothing taken between them and the notes of the operation cleared
at its end (logs 1, 25; MarkerStagesOneByOne says what each stage does). What that comes to, in every such order, for the budget
stage and the cancel requests, and what no marker changes. A marker in COASTING is one in RUN after FRAME_REGAINED (R14, R15,
R64, R70, R110, R112 to R115, R129, R135). -/
def Obligations.MarkerTakenInRun : Prop :=
  (∀ (s : State) (frame : FrameNumber) (tail : List Byte), s.dsReady → s.si.mode = .run → s.recordsSound →
    ∃ t : State, exec (.frameMarker frame tail) s = .next (t.offerDs (DsItem.marker frame tail).bytes) ∧
      (∃ (order : List MarkerStage) (rank : Nat → Nat),
        order.filter (fun x => x ∈ [.cancel, .holdOff, .probation]) = [.cancel, .holdOff, .probation] ∧
        order.filter (fun x => x ∈ [.confirm, .budget, .shedCheck, .admission]) =
          [.confirm, .budget, .shedCheck, .admission] ∧
        let reached := order.foldl (runStage rank) { s with si := { s.si with
          markerCount := s.si.markerCount + 1, frameNumber := frame, watchdog := some s.params.watchdogTime } }
        t = { reached with ot := { lostNow := [] }, ac := { reached.ac with shedNote := [] }
                           raceTick := s.raceTick + 1 }) ∧
      t.si.mode = .run ∧ t.si.markerCount = s.si.markerCount + 1 ∧ t.si.frameNumber = frame ∧
      t.si.watchdog = some s.params.watchdogTime ∧
      t.ac.banks = s.ac.staged.getD s.ac.banks ∧ t.ac.staged = none ∧
      t.ac.storm = (s.ac.storm.bind fun st =>
        if st.remaining ≤ 1 then none else some { st with remaining := st.remaining - 1 }) ∧
      (t.ac.heldLevel, t.ac.holdCounter) =
        (if s.ac.heldLevel ≤ t.ac.rawLevel then (t.ac.rawLevel, 0)
         else if s.ac.levelHold ≤ s.ac.holdCounter + 1 then (s.ac.heldLevel - 1, 0)
         else (s.ac.heldLevel, s.ac.holdCounter + 1)) ∧
      t.ac.effLevel = (match t.ac.storm with
        | some st => max t.ac.heldLevel st.level
        | none => t.ac.heldLevel) ∧
      t.ac.bEff = t.ac.banks.getD t.ac.effLevel 0 - s.params.pMin * s.params.pollLength ∧
      (∀ e ∈ t.tt.records, e.2.cancelReq = false) ∧
      (∀ id, (t.record? id).map (fun r => (r.addr, r.cls, r.load, r.ceiling, r.profile, r.lastTiming, r.lastPower)) =
        (s.record? id).map fun r => (r.addr, r.cls, r.load, r.ceiling, r.profile, r.lastTiming, r.lastPower)) ∧
      t.ids = s.ids ∧ t.tt.stationMap = s.tt.stationMap ∧ t.paths = s.paths ∧ t.insertion = s.insertion ∧
      t.lm = s.lm ∧ t.mp = s.mp ∧ t.uq = s.uq ∧ t.params = s.params ∧ t.pending = s.pending ∧
      t.mu.inFlight = s.mu.inFlight ∧ t.mu.mask = s.mu.mask ∧ t.ac.thresholds = s.ac.thresholds ∧
      t.ac.levelHold = s.ac.levelHold) ∧
  ∀ (s : State) (frame : FrameNumber) (tail : List Byte), s.dsReady → s.si.mode = .coasting →
    exec (.frameMarker frame tail) s = exec (.frameMarker frame tail)
      (State.notify { s with si := { s.si with mode := .run, frameNumber := frame } } .frameRegained none [])

/-- What each stage of a marker operation does. OT: cancel requests, resolved record by record in an order left open (log 2);
the hold-offs of LOST records, but for those that cancel resolution has just lost; the probation of committed records. AC: the
running confirm timers in ascending ID order; the level computation with STORM_EXPIRED before LEVEL_CHANGED; the shed check, whose
victims the pass notes; the admission pass of at most A_max terminals (R64 to R66, R70, R107, R110, R112 to R115, R126, R129 to
R132). -/
def Obligations.MarkerStagesOneByOne : Prop :=
  ∀ (s : State) (rank : Nat → Nat), s.recordsSound →
    let onEach (f : Nat → Record → Record) : State :=
      { s with tt := { s.tt with records := s.tt.records.map fun (e : Nat × Record) => (e.1, f e.1 e.2) } }
    let resolve (u : State) (id : Nat) : State := match u.record? id with
      | none => u
      | some r =>
        if r.cancelReq = true then
          let cleared := u.put id { r with cancelReq := false }
          let lost := cleared.lose .cancelled id
          if r.state = .polling ∨ r.state = .ranging ∨ r.state = .admitWait then
            State.notify { lost with ot := { lostNow := lost.ot.lostNow ++ [id] } } .reentryCancelled (some id)
              [0, (r.state.code : Int)]
          else if r.state = .lost then cleared.notify .reentryCancelled (some id) [0, (r.state.code : Int)]
          else cleared.notify .reentryCancelled (some id) [1, (r.state.code : Int)]
        else u
    let expire (u : State) (id : Nat) : State := match u.record? id with
      | none => u
      | some r => match r.confirmTimer with
        | none => u
        | some n =>
          if 1 < n then u.put id { r with confirmTimer := some (n - 1) }
          else if r.admitTries < u.params.admitTriesMax then
            u.put id { r with admitTries := r.admitTries + 1, message := some .admitMsg, confirmTimer := none }
          else u.lose .confirmTimeout id
    let n := (s.tt.records.filter fun e => decide (e.2.state ≠ TState.held)).length
    let o := (s.tt.records.filter fun e => decide
      (e.2.state = TState.lost ∨ e.2.state = TState.polling ∨ e.2.state = TState.ranging)).length
    let raw := (s.ac.thresholds.filter fun th => decide (th ≤ if n = 0 then 0 else 1000 * o / n)).length
    let held := if s.ac.heldLevel ≤ raw then raw
      else if s.ac.levelHold ≤ s.ac.holdCounter + 1 then s.ac.heldLevel - 1 else s.ac.heldLevel
    let counter := if s.ac.heldLevel ≤ raw ∨ s.ac.levelHold ≤ s.ac.holdCounter + 1 then 0 else s.ac.holdCounter + 1
    let storm := s.ac.storm.bind fun st =>
      if st.remaining ≤ 1 then none else some { st with remaining := st.remaining - 1 }
    let level := max held ((storm.map (·.level)).getD 0)
    let bEff := (s.ac.staged.getD s.ac.banks).getD level 0 - s.params.pMin * s.params.pollLength
    let stormTold : State := match s.ac.storm with
      | some st => if st.remaining ≤ 1 then s.notify .stormExpired none [st.level] else s
      | none => s
    let levelled : State := { stormTold with ac := { s.ac with
      banks := s.ac.staged.getD s.ac.banks, staged := none, storm := storm, rawLevel := raw, heldLevel := held
      holdCounter := counter, effLevel := level, bEff := bEff } }
    (∃ order : List Nat, order.Perm s.ids ∧ order.Pairwise (fun a b => rank a ≤ rank b) ∧
      runStage rank s .cancel = order.foldl resolve s) ∧
    runStage rank s .holdOff = onEach (fun id r =>
      if r.state ≠ .lost ∨ id ∈ s.ot.lostNow then r
      else if r.holdOff = 0 then { r with state := .polling, misses := 0, nextEligible := s.si.markerCount }
      else { r with holdOff := r.holdOff - 1 }) ∧
    runStage rank s .probation = onEach (fun _ r =>
      if (r.state = .confirming ∨ r.state = .inService ∨ r.state = .fading) ∧ 0 < r.probation then
        { r with probation := r.probation - 1, backoff := if r.probation = 1 then r.backoff - 1 else r.backoff }
      else r) ∧
    runStage rank s .confirm = s.ids.foldl expire s ∧
    runStage rank s .budget = (if level = s.ac.effLevel then levelled
      else levelled.notify .levelChanged none [s.ac.effLevel, level, bEff]) ∧
    runStage rank s .shedCheck = s.shedCheck true ∧
    runStage rank s .admission = State.admissionPass s.params.admitMax s

/-- Each record at a marker in RUN, whatever the interleaving (logs 1, 2, 25): a LOST record has its hold-off counted down, and
one at 0 becomes POLLING (R65); a cancel request is resolved by the state it finds, with the loss and REENTRY_CANCELLED or the
too-late notice (R70, R71); a committed terminal that stays one has its probation counted (R66) and its confirm timer counted,
retried or expired (R130, R131); a notice is missing only where it is masked or the queue is full (R177). -/
def Obligations.EachRecordAtMarker : Prop :=
  (∀ (s : State) (frame : FrameNumber) (tail : List Byte) (id : Nat) (r : Record), s.dsReady → s.si.mode = .run →
    s.recordsSound → s.waitListSound → s.ot.lostNow = [] → s.record? id = some r → r.state = .lost → r.cancelReq = false →
    r.confirmTimer = none →
    ∃ t : State, exec (.frameMarker frame tail) s = .next t ∧ t.record? id = some
      (if r.holdOff = 0 then { r with state := .polling, misses := 0, nextEligible := s.si.markerCount + 1 }
       else { r with holdOff := r.holdOff - 1 })) ∧
  ∀ (s : State) (frame : FrameNumber) (tail : List Byte) (id : Nat) (r : Record), s.dsReady → s.si.mode = .run →
    s.ledgerSound → s.fieldsSound → s.ot.lostNow = [] → s.ac.shedNote = [] → s.record? id = some r →
    ∃ t : State, exec (.frameMarker frame tail) s = .next t ∧
      let cleared : Record := { r with cancelReq := false }
      let cancelled := ((State.put { s with si := { s.si with markerCount := s.si.markerCount + 1 } } id cleared).lose
        .cancelled id).record? id
      let counted (q : Record) : Record :=
        { q with probation := q.probation - 1, backoff := if q.probation = 1 then q.backoff - 1 else q.backoff }
      let timed (q : Record) : Record := match q.confirmTimer with
        | none => q
        | some n =>
          if 1 < n then { q with confirmTimer := some (n - 1) }
          else { q with admitTries := q.admitTries + 1, message := some .admitMsg, confirmTimer := none }
      let expires := (r.confirmTimer = some 0 ∨ r.confirmTimer = some 1) ∧ s.params.admitTriesMax ≤ r.admitTries
      let told (late : Int) (st : TState) : Prop := r.cancelReq = true → s.mu.mask[9]? ≠ some false →
        64 ≤ t.mu.notices.length ∨ ∃ x ∈ t.mu.notices, x.kind = .reentryCancelled ∧ x.frame = frame ∧ x.id = some id ∧
          x.values = [late, (st.code : Int)]
      (r.state = .held → t.record? id = some cleared ∧ told 1 .held) ∧
      (r.state = .lost → told 0 .lost ∧ t.record? id = some
        (if r.holdOff = 0 then { cleared with state := .polling, misses := 0, nextEligible := s.si.markerCount + 1 }
         else { cleared with holdOff := r.holdOff - 1 })) ∧
      (r.state = .polling ∨ r.state = .ranging → told 0 r.state ∧
        t.record? id = if r.cancelReq = true then cancelled else some r) ∧
      (r.state = .admitWait →
        (t.stateOf id = some .confirming ∧ told 1 .confirming) ∨
          (told 0 .admitWait ∧ t.record? id = if r.cancelReq = true then cancelled else some r)) ∧
      (r.state = .shed → (t.stateOf id = some .confirming ∧ (told 1 .shed ∨ told 1 .confirming)) ∨
        (t.record? id = some cleared ∧ told 1 .shed)) ∧
      (r.state = .inService ∨ r.state = .fading →
        (t.record? id = some (counted cleared) ∧ told 1 r.state) ∨
          (t.stateOf id = some .shed ∧ (told 1 r.state ∨ told 1 .shed))) ∧
      (r.state = .confirming → ¬ expires →
        (t.record? id = some (counted (timed cleared)) ∧ told 1 .confirming) ∨
          (t.stateOf id = some .shed ∧ (told 1 .confirming ∨ told 1 .shed))) ∧
      (r.state = .confirming → expires → (told 1 .confirming ∨ told 0 .lost) ∧
        ∃ q, t.record? id = some q ∧ (q.state = .lost ∨ q.state = .polling) ∧ q.lastReason = .confirmTimeout ∧
          q.losses = r.losses + 1 ∧ q.cost = 0 ∧ q.probation = 0 ∧ q.confirmTimer = none ∧ q.message = none)

/-- The admission pass of a marker admits at most A_max terminals, and ends on an empty wait list. It weighs the head of the
list alone: it admits a head that fits, makes room by shedding the preemptible terminals in victim order and no further than
needed, or sheds no one, and stops at a head shed in the same marker operation (R132 to R135). -/
def Obligations.AdmissionPassWeighsTheHead : Prop :=
  (∀ s : State, s.admissionStage = State.admissionPass s.params.admitMax s ∧ State.admissionPass 0 s = s) ∧
  (∀ (s : State) (n : Nat), s.ac.waitList = [] → State.admissionPass n s = s) ∧
  ∀ (s : State) (n id : Nat) (rest : List Nat) (r : Record), s.recordsSound → s.ac.waitList = id :: rest →
    s.record? id = some r →
    let e := profileAt s.lm.profiles r.profile
    let cost := e.overhead + (r.load + e.capacity - 1) / e.capacity
    let preemptible := s.tt.records.filter fun x => x.2.state.committed && decide (0 < x.2.cost) &&
      decide (r.cls.code < x.2.cls.code)
    let admitted (u : State) : State := State.notify (State.put { u with ac := { u.ac with
        waitList := u.ac.waitList.filter (· ≠ id), committedSum := u.ac.committedSum + cost } } id
      { r with state := .confirming, cost := cost, admitTries := 1, confirmTimer := none, message := some .admitMsg })
      .terminalAdmitted (some id) [r.profile, cost]
    (id ∈ s.ac.shedNote → State.admissionPass (n + 1) s = s) ∧
    (id ∉ s.ac.shedNote → s.ac.committedSum + cost ≤ s.ac.bEff →
      State.admissionPass (n + 1) s = State.admissionPass n (admitted s)) ∧
    (id ∉ s.ac.shedNote → s.ac.bEff < s.ac.committedSum + cost →
      (preemptible.map (·.2.cost)).sum < s.ac.committedSum + cost - s.ac.bEff →
      State.admissionPass (n + 1) s = s) ∧
    (id ∉ s.ac.shedNote → r.state.waiting = true → s.ac.bEff < s.ac.committedSum + cost →
      s.ac.committedSum + cost - s.ac.bEff ≤ (preemptible.map (·.2.cost)).sum →
      (preemptible.map (·.2.cost)).sum ≤ s.ac.committedSum →
      ∃ (u : State) (victims : List Nat) (k : Nat), State.admissionPass (n + 1) s = State.admissionPass n (admitted u) ∧
        victims.Pairwise (fun a b => s.outranks b a = true) ∧ (∀ j, j ∈ victims ↔ ∃ q, (j, q) ∈ preemptible) ∧
        k ≤ victims.length ∧ u = (victims.take k).foldl (fun v id => v.shedTerminal true id) s ∧
        (∀ j, j < k →
          s.ac.bEff < ((victims.take j).foldl (fun v id => v.shedTerminal true id) s).ac.committedSum + cost) ∧
        u.ac.committedSum + cost ≤ u.ac.bEff ∧ u.ac.bEff = s.ac.bEff ∧
        ∀ j q, s.record? j = some q → (j, q) ∉ preemptible → u.record? j = some q)

/-! ## Events -/

/-- Expiry of the marker watchdog (R10, R16), and the visits at which a countdown ends, each taken on its own in RUN where
its condition holds (R65, R66, R110, R112, R130, R131). That an expiry is a row of its own, that it leaves the effective level
and B_eff as they are, and that it changes nothing where its condition fails, its ID is VACANT or the mode is not RUN, is the
model's choice (logs 4, 5). -/
def Obligations.ExpiryVisits : Prop :=
  ∀ s : State, s.paths.resetLow = false → s.recordsSound →
    (s.si.mode = .run → s.si.watchdog.isSome → exec .markerWatchdogExpiry s = .next (State.setFrameLostSeen
      (State.notify { s with
        si := { s.si with mode := .coasting, watchdog := none }
        tt := { s.tt with
          records := s.tt.records.map fun (e : Nat × Record) => (e.1, { e.2 with outstanding := none }) } } .frameLost
            none []))) ∧
    (s.si.mode ≠ .run ∨ s.si.watchdog = none → exec .markerWatchdogExpiry s = .next s) ∧
    (∀ (id : Byte) (r : Record), s.record? id.toNat = some r → s.si.mode = .run →
      (r.state = .lost → r.holdOff = 0 → exec (.holdOffExpiry id) s = .next (s.put id.toNat
        { r with state := .polling, misses := 0, nextEligible := s.si.markerCount })) ∧
      (r.state ≠ .lost ∨ r.holdOff ≠ 0 → exec (.holdOffExpiry id) s = .next s) ∧
      (r.state.committed = true → r.probation = 1 → exec (.probationExpiry id) s = .next (s.put id.toNat
        { r with probation := 0, backoff := r.backoff - 1 })) ∧
      (r.state.committed = false ∨ r.probation ≠ 1 → exec (.probationExpiry id) s = .next s) ∧
      (r.confirmTimer = some 1 → r.admitTries < s.params.admitTriesMax → exec (.confirmTimerExpiry id) s =
        .next (s.put id.toNat
          { r with admitTries := r.admitTries + 1, message := some .admitMsg, confirmTimer := none })) ∧
      (r.confirmTimer = some 1 → s.params.admitTriesMax ≤ r.admitTries → exec (.confirmTimerExpiry id) s =
        .next (s.lose .confirmTimeout id.toNat)) ∧
      (r.confirmTimer ≠ some 1 → exec (.confirmTimerExpiry id) s = .next s)) ∧
    (s.si.mode = .run → ∀ st, s.ac.storm = some st → st.remaining ≤ 1 → exec .stormExpiry s =
      .next (State.notify { s with ac := { s.ac with storm := none } } .stormExpired none [st.level])) ∧
    (s.si.mode = .run → s.ac.rawLevel < s.ac.heldLevel → s.ac.levelHold ≤ s.ac.holdCounter + 1 →
      exec .levelHoldExpiry s =
        .next { s with ac := { s.ac with heldLevel := s.ac.heldLevel - 1, holdCounter := 0 } }) ∧
    (s.si.mode = .run → (∀ st, s.ac.storm = some st → 1 < st.remaining) → exec .stormExpiry s = .next s) ∧
    (s.si.mode = .run → s.ac.heldLevel ≤ s.ac.rawLevel ∨ s.ac.holdCounter + 1 < s.ac.levelHold →
      exec .levelHoldExpiry s = .next s) ∧
    (∀ id : Byte, s.record? id.toNat = none → exec (.holdOffExpiry id) s = .next s ∧
      exec (.probationExpiry id) s = .next s ∧ exec (.confirmTimerExpiry id) s = .next s) ∧
    ∀ c : Instr, c = .stormExpiry ∨ c = .levelHoldExpiry ∨ (∃ id, c = .holdOffExpiry id) ∨
      (∃ id, c = .probationExpiry id) ∨ (∃ id, c = .confirmTimerExpiry id) →
      s.si.mode ≠ .run → exec c s = .next s

/-- The emission of notices and the boundary on US-out: an emission owed comes first, the head cell goes before the forwarded
item, a header that waited takes a place that becomes free and the items held on DS-in are then taken in order, and so are those
held on US-in when a forwarded item has been sent. An end-of-frame report that has been sent owes an emission, with the E in
force as it is sent (R6, R7, R171, R179; logs 6, 7, 8). The part's cells are laid out as in 12.5 and 12.6, with the codes of
their tables (R164, R179). What `select` settles for the items taken from US-in is left open (log 3). -/
def Obligations.BoundaryOnUsOut : Prop :=
  (let half (w : Half) : List Byte := [w.extractLsb' 8 8, w.extractLsb' 0 8]
   (∀ tag code status failing remaining data,
      (PartCell.response tag code status failing remaining data).bytes =
        0x21 :: (half (BitVec.ofNat 16 (8 + data.length)) ++ tag :: code :: BitVec.ofNat 8 status.code ::
          BitVec.ofNat 8 failing :: BitVec.ofNat 8 remaining :: data)) ∧
   (∀ n : Notice, (PartCell.notice n).bytes =
      0x22 :: (half (BitVec.ofNat 16 (9 + 6 * n.values.length)) ++ BitVec.ofNat 8 n.kind.code :: (half n.frame ++
        ((if n.id.isSome then 1 else 0) + (if n.gap then 2 else 0)) :: BitVec.ofNat 8 (n.id.getD 0) ::
        BitVec.ofNat 8 n.values.length :: n.values.flatMap fun v =>
          [40, 32, 24, 16, 8, 0].map fun k => (BitVec.ofInt 48 v).extractLsb' k 8))) ∧
   ([.ok, .busy, .badMode, .badId, .badValue, .badLength, .vacant, .notHeld, .wrongState, .duplicateAddress,
      .badProfileOrder, .empty, .aborted, .unknownCommand] : List Status).map Status.code = List.range 14 ∧
   ([.terminalLost, .terminalAdmitted, .terminalRestored, .terminalShed, .profileChanged, .fadeWarning, .fadingEntered,
      .fadingCleared, .holdGranted, .reentryCancelled, .unlistedArrived, .unlistedOverrun, .levelChanged, .stormExpired,
      .frameLost, .frameRegained, .regionViolation, .mapMalformed] : List NoticeKind).map NoticeKind.code =
        List.range' 1 18) ∧
  ∀ s : State, s.paths.resetLow = false →
    (s.paths.emissionDue = none → exec .noticeEmission s = .next s) ∧
    (∀ e, s.paths.emissionDue = some e →
      let n := min e (min s.mu.notices.length
        (Config.insertionPlaces - s.insertion.cells.length - s.insertion.reserved))
      exec .noticeEmission s = .next { s with
        paths := { s.paths with emissionDue := none }
        insertion := { s.insertion with
          cells := s.insertion.cells ++ (s.mu.notices.take n).map fun (x : Notice) => PartCell.notice x }
        mu := { s.mu with notices := s.mu.notices.drop n } } ∧
      exec .usOutBoundary s = (match exec .noticeEmission s with
        | .next u => exec .usOutBoundary u
        | stop => stop)) ∧
    (s.paths.emissionDue = none →
      (∀ cell rest, s.insertion.cells = cell :: rest → s.paths.header ≠ .waiting → exec .usOutBoundary s = .next { s with
        insertion := { s.insertion with cells := rest }
        paths := { s.paths with usOut := s.paths.usOut ++ [cell.bytes] } }) ∧
      (∀ cell rest, s.insertion.cells = cell :: rest → s.paths.header = .waiting → s.paths.dsHeld = [] →
        rest.length + s.insertion.reserved < Config.insertionPlaces → exec .usOutBoundary s = .next { s with
          insertion := { cells := rest, reserved := s.insertion.reserved + 1 }
          paths := { s.paths with header := .reserved, usOut := s.paths.usOut ++ [cell.bytes] } }) ∧
      (∀ cell rest, s.insertion.cells = cell :: rest → s.paths.header = .waiting →
        (rest.length + s.insertion.reserved < Config.insertionPlaces → exec .usOutBoundary s =
          .next (s.paths.dsHeld.foldl State.arriveDs { s with
            insertion := { cells := rest, reserved := s.insertion.reserved + 1 }
            paths := { s.paths with header := .reserved, dsHeld := [], usOut := s.paths.usOut ++ [cell.bytes] } })) ∧
        (Config.insertionPlaces ≤ rest.length + s.insertion.reserved → exec .usOutBoundary s = .next { s with
          insertion := { s.insertion with cells := rest }
          paths := { s.paths with usOut := s.paths.usOut ++ [cell.bytes] } })) ∧
      (s.insertion.cells = [] → s.paths.usItem = none → exec .usOutBoundary s = .next s) ∧
      (∀ item, s.insertion.cells = [] → s.paths.usItem = some item → s.paths.usHeld = [] →
        exec .usOutBoundary s = .next { s with
          paths := { s.paths with usItem := none
                                  emissionDue := if item.eof then some s.params.noticesPerReport else none
                                  usOut := s.paths.usOut ++ [item.bytes] } }) ∧
      (∀ item, s.insertion.cells = [] → s.paths.usItem = some item →
        ∃ select : Bool, exec .usOutBoundary s = .next (s.paths.usHeld.foldl (State.arriveUs select) { s with
          paths := { s.paths with usItem := none, usHeld := []
                                  emissionDue := if item.eof then some s.params.noticesPerReport else none
                                  usOut := s.paths.usOut ++ [item.bytes] } })) ∧
      (∀ item, s.insertion.cells = [] → s.paths.usItem = some item →
        ∃ t : State, exec .usOutBoundary s = .next t ∧ t.paths.usOut = s.paths.usOut ++ [item.bytes]))

/-- The queuing of one notice: masked, dropped at a full queue, or appended with its frame number and gap mark (R176, R177). -/
def Obligations.NoticeQueueRule : Prop :=
  ∀ (s : State) (kind : NoticeKind) (id : Option Nat) (values : List Int), s.mu.mask.length = 18 →
    (s.mu.mask[kind.code - 1]? = some false → s.notify kind id values = s) ∧
    (s.mu.mask[kind.code - 1]? = some true →
      (64 ≤ s.mu.notices.length → s.notify kind id values = { s with
        mu := { s.mu with gapPending := true }
        si := { s.si with sticky := { s.si.sticky with noticesDropped := true } } }) ∧
      (s.mu.notices.length < 64 → s.notify kind id values = { s with mu := { s.mu with
        notices := s.mu.notices ++
          [{ kind := kind, frame := s.si.frameNumber, id := id, values := values, gap := s.mu.gapPending }]
        gapPending := false } })) ∧
    s.mu.mask[kind.code - 1]? ≠ none

/-! ## Laws that every step keeps -/

/-- The account: while the mode is RUN or COASTING the committed sum is at most B_eff; it is the sum of the admitted costs,
each the cost of the assigned profile; and the wait list holds the waiting terminals in priority order (R121, R122, R124,
R126). While a sector reset stands between its steps 2 and 3 the accounts wait for step 3 (log 12). -/
def Obligations.LedgerKeptByEveryStep : Prop :=
  ∀ s t : State, s.ledgerSound → step s = .next t → t.ledgerSound

/-- The Insertion Queue never exceeds its 16 places, of which exactly the owed responses are reserved, and the Notice Queue
never exceeds 64 notices (R5, R7, R165, R176). -/
def Obligations.QueuesKeptByEveryStep : Prop :=
  ∀ s t : State, s.insertionSound → s.noticesSound → step s = .next t → t.insertionSound ∧ t.noticesSound

/-- Records stand by ascending ID within 1..255, the Station Map mirrors them with no address twice, and no station is at
once listed and in the Unlisted Queue (R19, R22, R26, R153). -/
def Obligations.TablesKeptByEveryStep : Prop :=
  ∀ s t : State, s.recordsSound → s.stationMapSound → s.unlistedSound → step s = .next t →
    t.recordsSound ∧ t.stationMapSound ∧ t.unlistedSound

/-- Every record stays within the ranges that R19 gives its fields and keeps what R21, R39 and R61 say beside them, the sector
parameters pass their checks, the watchdog is armed exactly in RUN, no poll is outstanding outside RUN, and the E of an emission
owed is within its range (R16, R19, R21, R39, R91, R171, R179). The premises `ledgerSound` and `settingsSound` are themselves kept by every step (LedgerKeptByEveryStep,
SettingsKeptByEveryStep). -/
def Obligations.FieldsKeptByEveryStep : Prop :=
  ∀ s t : State, s.ledgerSound → s.settingsSound → s.fieldsSound → s.watchdogSound → s.pollsSound →
    s.emissionSound → step s = .next t → t.fieldsSound ∧ t.watchdogSound ∧ t.pollsSound ∧ t.emissionSound

/-- The Profile Tables in force and in flight, the Level Table, the Budget Banks in force and staged, the storm, the levels, the
hold counter and B_eff stay within their ranges and orders, and the notice mask keeps its eighteen enables (R47, R48, R107 to R111,
R113, R114, R178). -/
def Obligations.SettingsKeptByEveryStep : Prop :=
  ∀ s t : State, s.settingsSound → step s = .next t → t.settingsSound

/-! ## Encodings -/

/-- Every command is read back from the bytes of its cell, with every operand at every value its length allows (12.4). The
operand of SECTOR_RESET is no field of the cell, and is read back as all seven steps (log 12). -/
def Obligations.CommandsReadBack : Prop :=
  ∀ c : Command, c.lengthOk = true → (∀ n, c = .sectorReset n → n = 7) → readCommand c.code c.params = .command c

/-- Every item that fits its length field is read back from its bytes, and so are the entries of a map (12.1 to 12.3, R182,
R183). That a frame marker longer than five bytes is read as a marker, from its first bytes, is the model's choice (log 20). -/
def Obligations.ItemsReadBack : Prop :=
  (∀ frame tail, (DsItem.marker frame tail).bytes.length ≤ 65535 →
    readDs (DsItem.marker frame tail).bytes = .marker frame tail) ∧
  (∀ frame count body, (DsItem.map frame count body).bytes.length ≤ 65535 →
    readDs (DsItem.map frame count body).bytes = .map frame count body) ∧
  (∀ offered messages, (DsItem.control offered messages).bytes.length ≤ 65535 →
    readDs (DsItem.control offered messages).bytes = .control offered messages) ∧
  (∀ payload, (DsItem.cell payload).bytes.length ≤ 65535 → readDs (DsItem.cell payload).bytes = .cell payload) ∧
  (∀ kind b, (UsItem.burst kind b).bytes.length ≤ 65535 → readUs (UsItem.burst kind b).bytes = .burst kind b) ∧
  (∀ b, (UsItem.poll b).bytes.length ≤ 65535 → readUs (UsItem.poll b).bytes = .poll b) ∧
  (∀ b, (UsItem.contention b).bytes.length ≤ 65535 → (b.outcome = .good → 6 ≤ b.tail.length) →
    readUs (UsItem.contention b).bytes = .contention b) ∧
  (∀ frame tail, (UsItem.endOfFrame frame tail).bytes.length ≤ 65535 →
    readUs (UsItem.endOfFrame frame tail).bytes = .endOfFrame frame tail) ∧
  ∀ es : List MapEntry, readMapEntries (es.flatMap MapEntry.bytes) = es

end
end

