-- ==== Sys2Proof/Laws/State.lean ====
section
/-! SUPPORT. One lemma for each block of State under each named update: what the update makes of it, or that it stands. -/

namespace Sys2Proof.Machine

/-! ### setRecords -/

@[simp] theorem State.setRecords_pending (s : State) (rs : List (Nat × Record)) :
    (s.setRecords rs).pending = s.pending := rfl
@[simp] theorem State.setRecords_paths (s : State) (rs : List (Nat × Record)) :
    (s.setRecords rs).paths = s.paths := rfl
@[simp] theorem State.setRecords_insertion (s : State) (rs : List (Nat × Record)) :
    (s.setRecords rs).insertion = s.insertion := rfl
@[simp] theorem State.setRecords_si (s : State) (rs : List (Nat × Record)) : (s.setRecords rs).si = s.si := rfl
@[simp] theorem State.setRecords_tt (s : State) (rs : List (Nat × Record)) :
    (s.setRecords rs).tt = { s.tt with records := rs } := rfl
@[simp] theorem State.setRecords_lm (s : State) (rs : List (Nat × Record)) : (s.setRecords rs).lm = s.lm := rfl
@[simp] theorem State.setRecords_ot (s : State) (rs : List (Nat × Record)) : (s.setRecords rs).ot = s.ot := rfl
@[simp] theorem State.setRecords_ac (s : State) (rs : List (Nat × Record)) : (s.setRecords rs).ac = s.ac := rfl
@[simp] theorem State.setRecords_mp (s : State) (rs : List (Nat × Record)) : (s.setRecords rs).mp = s.mp := rfl
@[simp] theorem State.setRecords_uq (s : State) (rs : List (Nat × Record)) : (s.setRecords rs).uq = s.uq := rfl
@[simp] theorem State.setRecords_mu (s : State) (rs : List (Nat × Record)) : (s.setRecords rs).mu = s.mu := rfl
@[simp] theorem State.setRecords_params (s : State) (rs : List (Nat × Record)) :
    (s.setRecords rs).params = s.params := rfl
@[simp] theorem State.setRecords_raceTick (s : State) (rs : List (Nat × Record)) :
    (s.setRecords rs).raceTick = s.raceTick := rfl

/-! ### update -/

@[simp] theorem State.update_pending (s : State) (id : Nat) (f : Record → Record) :
    (s.update id f).pending = s.pending := rfl
@[simp] theorem State.update_paths (s : State) (id : Nat) (f : Record → Record) :
    (s.update id f).paths = s.paths := rfl
@[simp] theorem State.update_insertion (s : State) (id : Nat) (f : Record → Record) :
    (s.update id f).insertion = s.insertion := rfl
@[simp] theorem State.update_si (s : State) (id : Nat) (f : Record → Record) : (s.update id f).si = s.si := rfl
@[simp] theorem State.update_tt (s : State) (id : Nat) (f : Record → Record) :
    (s.update id f).tt = { s.tt with records := assocUpdate s.tt.records id f } := rfl
@[simp] theorem State.update_lm (s : State) (id : Nat) (f : Record → Record) : (s.update id f).lm = s.lm := rfl
@[simp] theorem State.update_ot (s : State) (id : Nat) (f : Record → Record) : (s.update id f).ot = s.ot := rfl
@[simp] theorem State.update_ac (s : State) (id : Nat) (f : Record → Record) : (s.update id f).ac = s.ac := rfl
@[simp] theorem State.update_mp (s : State) (id : Nat) (f : Record → Record) : (s.update id f).mp = s.mp := rfl
@[simp] theorem State.update_uq (s : State) (id : Nat) (f : Record → Record) : (s.update id f).uq = s.uq := rfl
@[simp] theorem State.update_mu (s : State) (id : Nat) (f : Record → Record) : (s.update id f).mu = s.mu := rfl
@[simp] theorem State.update_params (s : State) (id : Nat) (f : Record → Record) :
    (s.update id f).params = s.params := rfl
@[simp] theorem State.update_raceTick (s : State) (id : Nat) (f : Record → Record) :
    (s.update id f).raceTick = s.raceTick := rfl

/-! ### updateAll -/

@[simp] theorem State.updateAll_pending (s : State) (f : Nat → Record → Record) :
    (s.updateAll f).pending = s.pending := rfl
@[simp] theorem State.updateAll_paths (s : State) (f : Nat → Record → Record) : (s.updateAll f).paths = s.paths := rfl
@[simp] theorem State.updateAll_insertion (s : State) (f : Nat → Record → Record) :
    (s.updateAll f).insertion = s.insertion := rfl
@[simp] theorem State.updateAll_si (s : State) (f : Nat → Record → Record) : (s.updateAll f).si = s.si := rfl
@[simp] theorem State.updateAll_tt (s : State) (f : Nat → Record → Record) :
    (s.updateAll f).tt = { s.tt with records := s.tt.records.map fun e => (e.1, f e.1 e.2) } := rfl
@[simp] theorem State.updateAll_lm (s : State) (f : Nat → Record → Record) : (s.updateAll f).lm = s.lm := rfl
@[simp] theorem State.updateAll_ot (s : State) (f : Nat → Record → Record) : (s.updateAll f).ot = s.ot := rfl
@[simp] theorem State.updateAll_ac (s : State) (f : Nat → Record → Record) : (s.updateAll f).ac = s.ac := rfl
@[simp] theorem State.updateAll_mp (s : State) (f : Nat → Record → Record) : (s.updateAll f).mp = s.mp := rfl
@[simp] theorem State.updateAll_uq (s : State) (f : Nat → Record → Record) : (s.updateAll f).uq = s.uq := rfl
@[simp] theorem State.updateAll_mu (s : State) (f : Nat → Record → Record) : (s.updateAll f).mu = s.mu := rfl
@[simp] theorem State.updateAll_params (s : State) (f : Nat → Record → Record) :
    (s.updateAll f).params = s.params := rfl
@[simp] theorem State.updateAll_raceTick (s : State) (f : Nat → Record → Record) :
    (s.updateAll f).raceTick = s.raceTick := rfl

/-! ### put -/

@[simp] theorem State.put_pending (s : State) (id : Nat) (r : Record) : (s.put id r).pending = s.pending := rfl
@[simp] theorem State.put_paths (s : State) (id : Nat) (r : Record) : (s.put id r).paths = s.paths := rfl
@[simp] theorem State.put_insertion (s : State) (id : Nat) (r : Record) : (s.put id r).insertion = s.insertion := rfl
@[simp] theorem State.put_si (s : State) (id : Nat) (r : Record) : (s.put id r).si = s.si := rfl
@[simp] theorem State.put_tt (s : State) (id : Nat) (r : Record) :
    (s.put id r).tt = { s.tt with records := assocUpdate s.tt.records id fun _ => r } := rfl
@[simp] theorem State.put_lm (s : State) (id : Nat) (r : Record) : (s.put id r).lm = s.lm := rfl
@[simp] theorem State.put_ot (s : State) (id : Nat) (r : Record) : (s.put id r).ot = s.ot := rfl
@[simp] theorem State.put_ac (s : State) (id : Nat) (r : Record) : (s.put id r).ac = s.ac := rfl
@[simp] theorem State.put_mp (s : State) (id : Nat) (r : Record) : (s.put id r).mp = s.mp := rfl
@[simp] theorem State.put_uq (s : State) (id : Nat) (r : Record) : (s.put id r).uq = s.uq := rfl
@[simp] theorem State.put_mu (s : State) (id : Nat) (r : Record) : (s.put id r).mu = s.mu := rfl
@[simp] theorem State.put_params (s : State) (id : Nat) (r : Record) : (s.put id r).params = s.params := rfl
@[simp] theorem State.put_raceTick (s : State) (id : Nat) (r : Record) : (s.put id r).raceTick = s.raceTick := rfl

/-! ### setStationMap -/

@[simp] theorem State.setStationMap_pending (s : State) (m : List (Nat × Address)) :
    (s.setStationMap m).pending = s.pending := rfl
@[simp] theorem State.setStationMap_paths (s : State) (m : List (Nat × Address)) :
    (s.setStationMap m).paths = s.paths := rfl
@[simp] theorem State.setStationMap_insertion (s : State) (m : List (Nat × Address)) :
    (s.setStationMap m).insertion = s.insertion := rfl
@[simp] theorem State.setStationMap_si (s : State) (m : List (Nat × Address)) : (s.setStationMap m).si = s.si := rfl
@[simp] theorem State.setStationMap_tt (s : State) (m : List (Nat × Address)) :
    (s.setStationMap m).tt = { s.tt with stationMap := m } := rfl
@[simp] theorem State.setStationMap_lm (s : State) (m : List (Nat × Address)) : (s.setStationMap m).lm = s.lm := rfl
@[simp] theorem State.setStationMap_ot (s : State) (m : List (Nat × Address)) : (s.setStationMap m).ot = s.ot := rfl
@[simp] theorem State.setStationMap_ac (s : State) (m : List (Nat × Address)) : (s.setStationMap m).ac = s.ac := rfl
@[simp] theorem State.setStationMap_mp (s : State) (m : List (Nat × Address)) : (s.setStationMap m).mp = s.mp := rfl
@[simp] theorem State.setStationMap_uq (s : State) (m : List (Nat × Address)) : (s.setStationMap m).uq = s.uq := rfl
@[simp] theorem State.setStationMap_mu (s : State) (m : List (Nat × Address)) : (s.setStationMap m).mu = s.mu := rfl
@[simp] theorem State.setStationMap_params (s : State) (m : List (Nat × Address)) :
    (s.setStationMap m).params = s.params := rfl
@[simp] theorem State.setStationMap_raceTick (s : State) (m : List (Nat × Address)) :
    (s.setStationMap m).raceTick = s.raceTick := rfl

/-! ### reservePlace -/

@[simp] theorem State.reservePlace_pending (s : State) : (s.reservePlace).pending = s.pending := rfl
@[simp] theorem State.reservePlace_paths (s : State) : (s.reservePlace).paths = s.paths := rfl
@[simp] theorem State.reservePlace_insertion (s : State) :
    (s.reservePlace).insertion = { s.insertion with reserved := s.insertion.reserved + 1 } := rfl
@[simp] theorem State.reservePlace_si (s : State) : (s.reservePlace).si = s.si := rfl
@[simp] theorem State.reservePlace_tt (s : State) : (s.reservePlace).tt = s.tt := rfl
@[simp] theorem State.reservePlace_lm (s : State) : (s.reservePlace).lm = s.lm := rfl
@[simp] theorem State.reservePlace_ot (s : State) : (s.reservePlace).ot = s.ot := rfl
@[simp] theorem State.reservePlace_ac (s : State) : (s.reservePlace).ac = s.ac := rfl
@[simp] theorem State.reservePlace_mp (s : State) : (s.reservePlace).mp = s.mp := rfl
@[simp] theorem State.reservePlace_uq (s : State) : (s.reservePlace).uq = s.uq := rfl
@[simp] theorem State.reservePlace_mu (s : State) : (s.reservePlace).mu = s.mu := rfl
@[simp] theorem State.reservePlace_params (s : State) : (s.reservePlace).params = s.params := rfl
@[simp] theorem State.reservePlace_raceTick (s : State) : (s.reservePlace).raceTick = s.raceTick := rfl

/-! ### releasePlace -/

@[simp] theorem State.releasePlace_pending (s : State) : (s.releasePlace).pending = s.pending := rfl
@[simp] theorem State.releasePlace_paths (s : State) : (s.releasePlace).paths = s.paths := rfl
@[simp] theorem State.releasePlace_insertion (s : State) :
    (s.releasePlace).insertion = { s.insertion with reserved := s.insertion.reserved - 1 } := rfl
@[simp] theorem State.releasePlace_si (s : State) : (s.releasePlace).si = s.si := rfl
@[simp] theorem State.releasePlace_tt (s : State) : (s.releasePlace).tt = s.tt := rfl
@[simp] theorem State.releasePlace_lm (s : State) : (s.releasePlace).lm = s.lm := rfl
@[simp] theorem State.releasePlace_ot (s : State) : (s.releasePlace).ot = s.ot := rfl
@[simp] theorem State.releasePlace_ac (s : State) : (s.releasePlace).ac = s.ac := rfl
@[simp] theorem State.releasePlace_mp (s : State) : (s.releasePlace).mp = s.mp := rfl
@[simp] theorem State.releasePlace_uq (s : State) : (s.releasePlace).uq = s.uq := rfl
@[simp] theorem State.releasePlace_mu (s : State) : (s.releasePlace).mu = s.mu := rfl
@[simp] theorem State.releasePlace_params (s : State) : (s.releasePlace).params = s.params := rfl
@[simp] theorem State.releasePlace_raceTick (s : State) : (s.releasePlace).raceTick = s.raceTick := rfl

/-! ### reply -/

@[simp] theorem State.reply_pending (s : State) (tag code : Byte) (r : Reply) :
    (s.reply tag code r).pending = s.pending := rfl
@[simp] theorem State.reply_paths (s : State) (tag code : Byte) (r : Reply) :
    (s.reply tag code r).paths = s.paths := rfl
@[simp] theorem State.reply_insertion (s : State) (tag code : Byte) (r : Reply) :
    (s.reply tag code r).insertion = {
      cells := s.insertion.cells ++ [.response tag code r.status r.failing r.remaining r.data]
      reserved := s.insertion.reserved - 1 } := rfl
@[simp] theorem State.reply_si (s : State) (tag code : Byte) (r : Reply) : (s.reply tag code r).si = s.si := rfl
@[simp] theorem State.reply_tt (s : State) (tag code : Byte) (r : Reply) : (s.reply tag code r).tt = s.tt := rfl
@[simp] theorem State.reply_lm (s : State) (tag code : Byte) (r : Reply) : (s.reply tag code r).lm = s.lm := rfl
@[simp] theorem State.reply_ot (s : State) (tag code : Byte) (r : Reply) : (s.reply tag code r).ot = s.ot := rfl
@[simp] theorem State.reply_ac (s : State) (tag code : Byte) (r : Reply) : (s.reply tag code r).ac = s.ac := rfl
@[simp] theorem State.reply_mp (s : State) (tag code : Byte) (r : Reply) : (s.reply tag code r).mp = s.mp := rfl
@[simp] theorem State.reply_uq (s : State) (tag code : Byte) (r : Reply) : (s.reply tag code r).uq = s.uq := rfl
@[simp] theorem State.reply_mu (s : State) (tag code : Byte) (r : Reply) : (s.reply tag code r).mu = s.mu := rfl
@[simp] theorem State.reply_params (s : State) (tag code : Byte) (r : Reply) :
    (s.reply tag code r).params = s.params := rfl
@[simp] theorem State.reply_raceTick (s : State) (tag code : Byte) (r : Reply) :
    (s.reply tag code r).raceTick = s.raceTick := rfl

/-! ### sendDs -/

@[simp] theorem State.sendDs_pending (s : State) (bytes : List Byte) : (s.sendDs bytes).pending = s.pending := rfl
@[simp] theorem State.sendDs_paths (s : State) (bytes : List Byte) :
    (s.sendDs bytes).paths = { s.paths with dsOut := s.paths.dsOut ++ [bytes] } := rfl
@[simp] theorem State.sendDs_insertion (s : State) (bytes : List Byte) :
    (s.sendDs bytes).insertion = s.insertion := rfl
@[simp] theorem State.sendDs_si (s : State) (bytes : List Byte) : (s.sendDs bytes).si = s.si := rfl
@[simp] theorem State.sendDs_tt (s : State) (bytes : List Byte) : (s.sendDs bytes).tt = s.tt := rfl
@[simp] theorem State.sendDs_lm (s : State) (bytes : List Byte) : (s.sendDs bytes).lm = s.lm := rfl
@[simp] theorem State.sendDs_ot (s : State) (bytes : List Byte) : (s.sendDs bytes).ot = s.ot := rfl
@[simp] theorem State.sendDs_ac (s : State) (bytes : List Byte) : (s.sendDs bytes).ac = s.ac := rfl
@[simp] theorem State.sendDs_mp (s : State) (bytes : List Byte) : (s.sendDs bytes).mp = s.mp := rfl
@[simp] theorem State.sendDs_uq (s : State) (bytes : List Byte) : (s.sendDs bytes).uq = s.uq := rfl
@[simp] theorem State.sendDs_mu (s : State) (bytes : List Byte) : (s.sendDs bytes).mu = s.mu := rfl
@[simp] theorem State.sendDs_params (s : State) (bytes : List Byte) : (s.sendDs bytes).params = s.params := rfl
@[simp] theorem State.sendDs_raceTick (s : State) (bytes : List Byte) : (s.sendDs bytes).raceTick = s.raceTick := rfl

/-! ### clearDsItem -/

@[simp] theorem State.clearDsItem_pending (s : State) : (s.clearDsItem).pending = s.pending := rfl
@[simp] theorem State.clearDsItem_paths (s : State) : (s.clearDsItem).paths = { s.paths with dsItem := none } := rfl
@[simp] theorem State.clearDsItem_insertion (s : State) : (s.clearDsItem).insertion = s.insertion := rfl
@[simp] theorem State.clearDsItem_si (s : State) : (s.clearDsItem).si = s.si := rfl
@[simp] theorem State.clearDsItem_tt (s : State) : (s.clearDsItem).tt = s.tt := rfl
@[simp] theorem State.clearDsItem_lm (s : State) : (s.clearDsItem).lm = s.lm := rfl
@[simp] theorem State.clearDsItem_ot (s : State) : (s.clearDsItem).ot = s.ot := rfl
@[simp] theorem State.clearDsItem_ac (s : State) : (s.clearDsItem).ac = s.ac := rfl
@[simp] theorem State.clearDsItem_mp (s : State) : (s.clearDsItem).mp = s.mp := rfl
@[simp] theorem State.clearDsItem_uq (s : State) : (s.clearDsItem).uq = s.uq := rfl
@[simp] theorem State.clearDsItem_mu (s : State) : (s.clearDsItem).mu = s.mu := rfl
@[simp] theorem State.clearDsItem_params (s : State) : (s.clearDsItem).params = s.params := rfl
@[simp] theorem State.clearDsItem_raceTick (s : State) : (s.clearDsItem).raceTick = s.raceTick := rfl

/-! ### setDsOutReady -/

@[simp] theorem State.setDsOutReady_pending (s : State) (level : Bool) :
    (s.setDsOutReady level).pending = s.pending := rfl
@[simp] theorem State.setDsOutReady_paths (s : State) (level : Bool) :
    (s.setDsOutReady level).paths = { s.paths with dsOutReady := level } := rfl
@[simp] theorem State.setDsOutReady_insertion (s : State) (level : Bool) :
    (s.setDsOutReady level).insertion = s.insertion := rfl
@[simp] theorem State.setDsOutReady_si (s : State) (level : Bool) : (s.setDsOutReady level).si = s.si := rfl
@[simp] theorem State.setDsOutReady_tt (s : State) (level : Bool) : (s.setDsOutReady level).tt = s.tt := rfl
@[simp] theorem State.setDsOutReady_lm (s : State) (level : Bool) : (s.setDsOutReady level).lm = s.lm := rfl
@[simp] theorem State.setDsOutReady_ot (s : State) (level : Bool) : (s.setDsOutReady level).ot = s.ot := rfl
@[simp] theorem State.setDsOutReady_ac (s : State) (level : Bool) : (s.setDsOutReady level).ac = s.ac := rfl
@[simp] theorem State.setDsOutReady_mp (s : State) (level : Bool) : (s.setDsOutReady level).mp = s.mp := rfl
@[simp] theorem State.setDsOutReady_uq (s : State) (level : Bool) : (s.setDsOutReady level).uq = s.uq := rfl
@[simp] theorem State.setDsOutReady_mu (s : State) (level : Bool) : (s.setDsOutReady level).mu = s.mu := rfl
@[simp] theorem State.setDsOutReady_params (s : State) (level : Bool) :
    (s.setDsOutReady level).params = s.params := rfl
@[simp] theorem State.setDsOutReady_raceTick (s : State) (level : Bool) :
    (s.setDsOutReady level).raceTick = s.raceTick := rfl

/-! ### waitDs -/

@[simp] theorem State.waitDs_pending (s : State) (bytes : List Byte) : (s.waitDs bytes).pending = s.pending := rfl
@[simp] theorem State.waitDs_paths (s : State) (bytes : List Byte) :
    (s.waitDs bytes).paths = { s.paths with dsItem := some bytes } := rfl
@[simp] theorem State.waitDs_insertion (s : State) (bytes : List Byte) :
    (s.waitDs bytes).insertion = s.insertion := rfl
@[simp] theorem State.waitDs_si (s : State) (bytes : List Byte) : (s.waitDs bytes).si = s.si := rfl
@[simp] theorem State.waitDs_tt (s : State) (bytes : List Byte) : (s.waitDs bytes).tt = s.tt := rfl
@[simp] theorem State.waitDs_lm (s : State) (bytes : List Byte) : (s.waitDs bytes).lm = s.lm := rfl
@[simp] theorem State.waitDs_ot (s : State) (bytes : List Byte) : (s.waitDs bytes).ot = s.ot := rfl
@[simp] theorem State.waitDs_ac (s : State) (bytes : List Byte) : (s.waitDs bytes).ac = s.ac := rfl
@[simp] theorem State.waitDs_mp (s : State) (bytes : List Byte) : (s.waitDs bytes).mp = s.mp := rfl
@[simp] theorem State.waitDs_uq (s : State) (bytes : List Byte) : (s.waitDs bytes).uq = s.uq := rfl
@[simp] theorem State.waitDs_mu (s : State) (bytes : List Byte) : (s.waitDs bytes).mu = s.mu := rfl
@[simp] theorem State.waitDs_params (s : State) (bytes : List Byte) : (s.waitDs bytes).params = s.params := rfl
@[simp] theorem State.waitDs_raceTick (s : State) (bytes : List Byte) : (s.waitDs bytes).raceTick = s.raceTick := rfl

/-! ### sendUs -/

@[simp] theorem State.sendUs_pending (s : State) (bytes : List Byte) : (s.sendUs bytes).pending = s.pending := rfl
@[simp] theorem State.sendUs_paths (s : State) (bytes : List Byte) :
    (s.sendUs bytes).paths = { s.paths with usOut := s.paths.usOut ++ [bytes] } := rfl
@[simp] theorem State.sendUs_insertion (s : State) (bytes : List Byte) :
    (s.sendUs bytes).insertion = s.insertion := rfl
@[simp] theorem State.sendUs_si (s : State) (bytes : List Byte) : (s.sendUs bytes).si = s.si := rfl
@[simp] theorem State.sendUs_tt (s : State) (bytes : List Byte) : (s.sendUs bytes).tt = s.tt := rfl
@[simp] theorem State.sendUs_lm (s : State) (bytes : List Byte) : (s.sendUs bytes).lm = s.lm := rfl
@[simp] theorem State.sendUs_ot (s : State) (bytes : List Byte) : (s.sendUs bytes).ot = s.ot := rfl
@[simp] theorem State.sendUs_ac (s : State) (bytes : List Byte) : (s.sendUs bytes).ac = s.ac := rfl
@[simp] theorem State.sendUs_mp (s : State) (bytes : List Byte) : (s.sendUs bytes).mp = s.mp := rfl
@[simp] theorem State.sendUs_uq (s : State) (bytes : List Byte) : (s.sendUs bytes).uq = s.uq := rfl
@[simp] theorem State.sendUs_mu (s : State) (bytes : List Byte) : (s.sendUs bytes).mu = s.mu := rfl
@[simp] theorem State.sendUs_params (s : State) (bytes : List Byte) : (s.sendUs bytes).params = s.params := rfl
@[simp] theorem State.sendUs_raceTick (s : State) (bytes : List Byte) : (s.sendUs bytes).raceTick = s.raceTick := rfl

/-! ### readyUs -/

@[simp] theorem State.readyUs_pending (s : State) (bytes : List Byte) (eof : Bool) :
    (s.readyUs bytes eof).pending = s.pending := rfl
@[simp] theorem State.readyUs_paths (s : State) (bytes : List Byte) (eof : Bool) :
    (s.readyUs bytes eof).paths = { s.paths with usItem := some { bytes := bytes, eof := eof } } := rfl
@[simp] theorem State.readyUs_insertion (s : State) (bytes : List Byte) (eof : Bool) :
    (s.readyUs bytes eof).insertion = s.insertion := rfl
@[simp] theorem State.readyUs_si (s : State) (bytes : List Byte) (eof : Bool) : (s.readyUs bytes eof).si = s.si := rfl
@[simp] theorem State.readyUs_tt (s : State) (bytes : List Byte) (eof : Bool) : (s.readyUs bytes eof).tt = s.tt := rfl
@[simp] theorem State.readyUs_lm (s : State) (bytes : List Byte) (eof : Bool) : (s.readyUs bytes eof).lm = s.lm := rfl
@[simp] theorem State.readyUs_ot (s : State) (bytes : List Byte) (eof : Bool) : (s.readyUs bytes eof).ot = s.ot := rfl
@[simp] theorem State.readyUs_ac (s : State) (bytes : List Byte) (eof : Bool) : (s.readyUs bytes eof).ac = s.ac := rfl
@[simp] theorem State.readyUs_mp (s : State) (bytes : List Byte) (eof : Bool) : (s.readyUs bytes eof).mp = s.mp := rfl
@[simp] theorem State.readyUs_uq (s : State) (bytes : List Byte) (eof : Bool) : (s.readyUs bytes eof).uq = s.uq := rfl
@[simp] theorem State.readyUs_mu (s : State) (bytes : List Byte) (eof : Bool) : (s.readyUs bytes eof).mu = s.mu := rfl
@[simp] theorem State.readyUs_params (s : State) (bytes : List Byte) (eof : Bool) :
    (s.readyUs bytes eof).params = s.params := rfl
@[simp] theorem State.readyUs_raceTick (s : State) (bytes : List Byte) (eof : Bool) :
    (s.readyUs bytes eof).raceTick = s.raceTick := rfl

/-! ### clearUs -/

@[simp] theorem State.clearUs_pending (s : State) (eof : Bool) : (s.clearUs eof).pending = s.pending := rfl
@[simp] theorem State.clearUs_paths (s : State) (eof : Bool) :
    (s.clearUs eof).paths = { s.paths with
      usItem := none, emissionDue := if eof then some s.params.noticesPerReport else none } := rfl
@[simp] theorem State.clearUs_insertion (s : State) (eof : Bool) : (s.clearUs eof).insertion = s.insertion := rfl
@[simp] theorem State.clearUs_si (s : State) (eof : Bool) : (s.clearUs eof).si = s.si := rfl
@[simp] theorem State.clearUs_tt (s : State) (eof : Bool) : (s.clearUs eof).tt = s.tt := rfl
@[simp] theorem State.clearUs_lm (s : State) (eof : Bool) : (s.clearUs eof).lm = s.lm := rfl
@[simp] theorem State.clearUs_ot (s : State) (eof : Bool) : (s.clearUs eof).ot = s.ot := rfl
@[simp] theorem State.clearUs_ac (s : State) (eof : Bool) : (s.clearUs eof).ac = s.ac := rfl
@[simp] theorem State.clearUs_mp (s : State) (eof : Bool) : (s.clearUs eof).mp = s.mp := rfl
@[simp] theorem State.clearUs_uq (s : State) (eof : Bool) : (s.clearUs eof).uq = s.uq := rfl
@[simp] theorem State.clearUs_mu (s : State) (eof : Bool) : (s.clearUs eof).mu = s.mu := rfl
@[simp] theorem State.clearUs_params (s : State) (eof : Bool) : (s.clearUs eof).params = s.params := rfl
@[simp] theorem State.clearUs_raceTick (s : State) (eof : Bool) : (s.clearUs eof).raceTick = s.raceTick := rfl

/-! ### setHeader -/

@[simp] theorem State.setHeader_pending (s : State) (h : HeaderState) : (s.setHeader h).pending = s.pending := rfl
@[simp] theorem State.setHeader_paths (s : State) (h : HeaderState) :
    (s.setHeader h).paths = { s.paths with header := h } := rfl
@[simp] theorem State.setHeader_insertion (s : State) (h : HeaderState) :
    (s.setHeader h).insertion = s.insertion := rfl
@[simp] theorem State.setHeader_si (s : State) (h : HeaderState) : (s.setHeader h).si = s.si := rfl
@[simp] theorem State.setHeader_tt (s : State) (h : HeaderState) : (s.setHeader h).tt = s.tt := rfl
@[simp] theorem State.setHeader_lm (s : State) (h : HeaderState) : (s.setHeader h).lm = s.lm := rfl
@[simp] theorem State.setHeader_ot (s : State) (h : HeaderState) : (s.setHeader h).ot = s.ot := rfl
@[simp] theorem State.setHeader_ac (s : State) (h : HeaderState) : (s.setHeader h).ac = s.ac := rfl
@[simp] theorem State.setHeader_mp (s : State) (h : HeaderState) : (s.setHeader h).mp = s.mp := rfl
@[simp] theorem State.setHeader_uq (s : State) (h : HeaderState) : (s.setHeader h).uq = s.uq := rfl
@[simp] theorem State.setHeader_mu (s : State) (h : HeaderState) : (s.setHeader h).mu = s.mu := rfl
@[simp] theorem State.setHeader_params (s : State) (h : HeaderState) : (s.setHeader h).params = s.params := rfl
@[simp] theorem State.setHeader_raceTick (s : State) (h : HeaderState) : (s.setHeader h).raceTick = s.raceTick := rfl

/-! ### holdDs -/

@[simp] theorem State.holdDs_pending (s : State) (i : DsItem) : (s.holdDs i).pending = s.pending := rfl
@[simp] theorem State.holdDs_paths (s : State) (i : DsItem) :
    (s.holdDs i).paths = { s.paths with dsHeld := s.paths.dsHeld ++ [i] } := rfl
@[simp] theorem State.holdDs_insertion (s : State) (i : DsItem) : (s.holdDs i).insertion = s.insertion := rfl
@[simp] theorem State.holdDs_si (s : State) (i : DsItem) : (s.holdDs i).si = s.si := rfl
@[simp] theorem State.holdDs_tt (s : State) (i : DsItem) : (s.holdDs i).tt = s.tt := rfl
@[simp] theorem State.holdDs_lm (s : State) (i : DsItem) : (s.holdDs i).lm = s.lm := rfl
@[simp] theorem State.holdDs_ot (s : State) (i : DsItem) : (s.holdDs i).ot = s.ot := rfl
@[simp] theorem State.holdDs_ac (s : State) (i : DsItem) : (s.holdDs i).ac = s.ac := rfl
@[simp] theorem State.holdDs_mp (s : State) (i : DsItem) : (s.holdDs i).mp = s.mp := rfl
@[simp] theorem State.holdDs_uq (s : State) (i : DsItem) : (s.holdDs i).uq = s.uq := rfl
@[simp] theorem State.holdDs_mu (s : State) (i : DsItem) : (s.holdDs i).mu = s.mu := rfl
@[simp] theorem State.holdDs_params (s : State) (i : DsItem) : (s.holdDs i).params = s.params := rfl
@[simp] theorem State.holdDs_raceTick (s : State) (i : DsItem) : (s.holdDs i).raceTick = s.raceTick := rfl

/-! ### holdUs -/

@[simp] theorem State.holdUs_pending (s : State) (i : UsItem) : (s.holdUs i).pending = s.pending := rfl
@[simp] theorem State.holdUs_paths (s : State) (i : UsItem) :
    (s.holdUs i).paths = { s.paths with usHeld := s.paths.usHeld ++ [i] } := rfl
@[simp] theorem State.holdUs_insertion (s : State) (i : UsItem) : (s.holdUs i).insertion = s.insertion := rfl
@[simp] theorem State.holdUs_si (s : State) (i : UsItem) : (s.holdUs i).si = s.si := rfl
@[simp] theorem State.holdUs_tt (s : State) (i : UsItem) : (s.holdUs i).tt = s.tt := rfl
@[simp] theorem State.holdUs_lm (s : State) (i : UsItem) : (s.holdUs i).lm = s.lm := rfl
@[simp] theorem State.holdUs_ot (s : State) (i : UsItem) : (s.holdUs i).ot = s.ot := rfl
@[simp] theorem State.holdUs_ac (s : State) (i : UsItem) : (s.holdUs i).ac = s.ac := rfl
@[simp] theorem State.holdUs_mp (s : State) (i : UsItem) : (s.holdUs i).mp = s.mp := rfl
@[simp] theorem State.holdUs_uq (s : State) (i : UsItem) : (s.holdUs i).uq = s.uq := rfl
@[simp] theorem State.holdUs_mu (s : State) (i : UsItem) : (s.holdUs i).mu = s.mu := rfl
@[simp] theorem State.holdUs_params (s : State) (i : UsItem) : (s.holdUs i).params = s.params := rfl
@[simp] theorem State.holdUs_raceTick (s : State) (i : UsItem) : (s.holdUs i).raceTick = s.raceTick := rfl

/-! ### setInFlight -/

@[simp] theorem State.setInFlight_pending (s : State) (c : Option InFlight) :
    (s.setInFlight c).pending = s.pending := rfl
@[simp] theorem State.setInFlight_paths (s : State) (c : Option InFlight) : (s.setInFlight c).paths = s.paths := rfl
@[simp] theorem State.setInFlight_insertion (s : State) (c : Option InFlight) :
    (s.setInFlight c).insertion = s.insertion := rfl
@[simp] theorem State.setInFlight_si (s : State) (c : Option InFlight) : (s.setInFlight c).si = s.si := rfl
@[simp] theorem State.setInFlight_tt (s : State) (c : Option InFlight) : (s.setInFlight c).tt = s.tt := rfl
@[simp] theorem State.setInFlight_lm (s : State) (c : Option InFlight) : (s.setInFlight c).lm = s.lm := rfl
@[simp] theorem State.setInFlight_ot (s : State) (c : Option InFlight) : (s.setInFlight c).ot = s.ot := rfl
@[simp] theorem State.setInFlight_ac (s : State) (c : Option InFlight) : (s.setInFlight c).ac = s.ac := rfl
@[simp] theorem State.setInFlight_mp (s : State) (c : Option InFlight) : (s.setInFlight c).mp = s.mp := rfl
@[simp] theorem State.setInFlight_uq (s : State) (c : Option InFlight) : (s.setInFlight c).uq = s.uq := rfl
@[simp] theorem State.setInFlight_mu (s : State) (c : Option InFlight) :
    (s.setInFlight c).mu = { s.mu with inFlight := c } := rfl
@[simp] theorem State.setInFlight_params (s : State) (c : Option InFlight) :
    (s.setInFlight c).params = s.params := rfl
@[simp] theorem State.setInFlight_raceTick (s : State) (c : Option InFlight) :
    (s.setInFlight c).raceTick = s.raceTick := rfl

/-! ### resetNotices -/

@[simp] theorem State.resetNotices_pending (s : State) : (s.resetNotices).pending = s.pending := rfl
@[simp] theorem State.resetNotices_paths (s : State) : (s.resetNotices).paths = s.paths := rfl
@[simp] theorem State.resetNotices_insertion (s : State) : (s.resetNotices).insertion = s.insertion := rfl
@[simp] theorem State.resetNotices_si (s : State) : (s.resetNotices).si = s.si := rfl
@[simp] theorem State.resetNotices_tt (s : State) : (s.resetNotices).tt = s.tt := rfl
@[simp] theorem State.resetNotices_lm (s : State) : (s.resetNotices).lm = s.lm := rfl
@[simp] theorem State.resetNotices_ot (s : State) : (s.resetNotices).ot = s.ot := rfl
@[simp] theorem State.resetNotices_ac (s : State) : (s.resetNotices).ac = s.ac := rfl
@[simp] theorem State.resetNotices_mp (s : State) : (s.resetNotices).mp = s.mp := rfl
@[simp] theorem State.resetNotices_uq (s : State) : (s.resetNotices).uq = s.uq := rfl
@[simp] theorem State.resetNotices_mu (s : State) :
    (s.resetNotices).mu = { s.mu with notices := [], gapPending := false } := rfl
@[simp] theorem State.resetNotices_params (s : State) : (s.resetNotices).params = s.params := rfl
@[simp] theorem State.resetNotices_raceTick (s : State) : (s.resetNotices).raceTick = s.raceTick := rfl

/-! ### setMode -/

@[simp] theorem State.setMode_pending (s : State) (m : Mode) : (s.setMode m).pending = s.pending := rfl
@[simp] theorem State.setMode_paths (s : State) (m : Mode) : (s.setMode m).paths = s.paths := rfl
@[simp] theorem State.setMode_insertion (s : State) (m : Mode) : (s.setMode m).insertion = s.insertion := rfl
@[simp] theorem State.setMode_si (s : State) (m : Mode) : (s.setMode m).si = { s.si with mode := m } := rfl
@[simp] theorem State.setMode_tt (s : State) (m : Mode) : (s.setMode m).tt = s.tt := rfl
@[simp] theorem State.setMode_lm (s : State) (m : Mode) : (s.setMode m).lm = s.lm := rfl
@[simp] theorem State.setMode_ot (s : State) (m : Mode) : (s.setMode m).ot = s.ot := rfl
@[simp] theorem State.setMode_ac (s : State) (m : Mode) : (s.setMode m).ac = s.ac := rfl
@[simp] theorem State.setMode_mp (s : State) (m : Mode) : (s.setMode m).mp = s.mp := rfl
@[simp] theorem State.setMode_uq (s : State) (m : Mode) : (s.setMode m).uq = s.uq := rfl
@[simp] theorem State.setMode_mu (s : State) (m : Mode) : (s.setMode m).mu = s.mu := rfl
@[simp] theorem State.setMode_params (s : State) (m : Mode) : (s.setMode m).params = s.params := rfl
@[simp] theorem State.setMode_raceTick (s : State) (m : Mode) : (s.setMode m).raceTick = s.raceTick := rfl

/-! ### recordFrame -/

@[simp] theorem State.recordFrame_pending (s : State) (frame : FrameNumber) :
    (s.recordFrame frame).pending = s.pending := rfl
@[simp] theorem State.recordFrame_paths (s : State) (frame : FrameNumber) :
    (s.recordFrame frame).paths = s.paths := rfl
@[simp] theorem State.recordFrame_insertion (s : State) (frame : FrameNumber) :
    (s.recordFrame frame).insertion = s.insertion := rfl
@[simp] theorem State.recordFrame_si (s : State) (frame : FrameNumber) :
    (s.recordFrame frame).si = { s.si with frameNumber := frame } := rfl
@[simp] theorem State.recordFrame_tt (s : State) (frame : FrameNumber) : (s.recordFrame frame).tt = s.tt := rfl
@[simp] theorem State.recordFrame_lm (s : State) (frame : FrameNumber) : (s.recordFrame frame).lm = s.lm := rfl
@[simp] theorem State.recordFrame_ot (s : State) (frame : FrameNumber) : (s.recordFrame frame).ot = s.ot := rfl
@[simp] theorem State.recordFrame_ac (s : State) (frame : FrameNumber) : (s.recordFrame frame).ac = s.ac := rfl
@[simp] theorem State.recordFrame_mp (s : State) (frame : FrameNumber) : (s.recordFrame frame).mp = s.mp := rfl
@[simp] theorem State.recordFrame_uq (s : State) (frame : FrameNumber) : (s.recordFrame frame).uq = s.uq := rfl
@[simp] theorem State.recordFrame_mu (s : State) (frame : FrameNumber) : (s.recordFrame frame).mu = s.mu := rfl
@[simp] theorem State.recordFrame_params (s : State) (frame : FrameNumber) :
    (s.recordFrame frame).params = s.params := rfl
@[simp] theorem State.recordFrame_raceTick (s : State) (frame : FrameNumber) :
    (s.recordFrame frame).raceTick = s.raceTick := rfl

/-! ### countMarker -/

@[simp] theorem State.countMarker_pending (s : State) : (s.countMarker).pending = s.pending := rfl
@[simp] theorem State.countMarker_paths (s : State) : (s.countMarker).paths = s.paths := rfl
@[simp] theorem State.countMarker_insertion (s : State) : (s.countMarker).insertion = s.insertion := rfl
@[simp] theorem State.countMarker_si (s : State) :
    (s.countMarker).si = { s.si with markerCount := s.si.markerCount + 1, watchdog := some s.params.watchdogTime } := rfl
@[simp] theorem State.countMarker_tt (s : State) : (s.countMarker).tt = s.tt := rfl
@[simp] theorem State.countMarker_lm (s : State) : (s.countMarker).lm = s.lm := rfl
@[simp] theorem State.countMarker_ot (s : State) : (s.countMarker).ot = s.ot := rfl
@[simp] theorem State.countMarker_ac (s : State) : (s.countMarker).ac = s.ac := rfl
@[simp] theorem State.countMarker_mp (s : State) : (s.countMarker).mp = s.mp := rfl
@[simp] theorem State.countMarker_uq (s : State) : (s.countMarker).uq = s.uq := rfl
@[simp] theorem State.countMarker_mu (s : State) : (s.countMarker).mu = s.mu := rfl
@[simp] theorem State.countMarker_params (s : State) : (s.countMarker).params = s.params := rfl
@[simp] theorem State.countMarker_raceTick (s : State) : (s.countMarker).raceTick = s.raceTick := rfl

/-! ### setFrameLostSeen -/

@[simp] theorem State.setFrameLostSeen_pending (s : State) : (s.setFrameLostSeen).pending = s.pending := rfl
@[simp] theorem State.setFrameLostSeen_paths (s : State) : (s.setFrameLostSeen).paths = s.paths := rfl
@[simp] theorem State.setFrameLostSeen_insertion (s : State) : (s.setFrameLostSeen).insertion = s.insertion := rfl
@[simp] theorem State.setFrameLostSeen_si (s : State) :
    (s.setFrameLostSeen).si = { s.si with sticky := { s.si.sticky with frameLostSeen := true } } := rfl
@[simp] theorem State.setFrameLostSeen_tt (s : State) : (s.setFrameLostSeen).tt = s.tt := rfl
@[simp] theorem State.setFrameLostSeen_lm (s : State) : (s.setFrameLostSeen).lm = s.lm := rfl
@[simp] theorem State.setFrameLostSeen_ot (s : State) : (s.setFrameLostSeen).ot = s.ot := rfl
@[simp] theorem State.setFrameLostSeen_ac (s : State) : (s.setFrameLostSeen).ac = s.ac := rfl
@[simp] theorem State.setFrameLostSeen_mp (s : State) : (s.setFrameLostSeen).mp = s.mp := rfl
@[simp] theorem State.setFrameLostSeen_uq (s : State) : (s.setFrameLostSeen).uq = s.uq := rfl
@[simp] theorem State.setFrameLostSeen_mu (s : State) : (s.setFrameLostSeen).mu = s.mu := rfl
@[simp] theorem State.setFrameLostSeen_params (s : State) : (s.setFrameLostSeen).params = s.params := rfl
@[simp] theorem State.setFrameLostSeen_raceTick (s : State) : (s.setFrameLostSeen).raceTick = s.raceTick := rfl

/-! ### setMapMalformedSeen -/

@[simp] theorem State.setMapMalformedSeen_pending (s : State) : (s.setMapMalformedSeen).pending = s.pending := rfl
@[simp] theorem State.setMapMalformedSeen_paths (s : State) : (s.setMapMalformedSeen).paths = s.paths := rfl
@[simp] theorem State.setMapMalformedSeen_insertion (s : State) :
    (s.setMapMalformedSeen).insertion = s.insertion := rfl
@[simp] theorem State.setMapMalformedSeen_si (s : State) :
    (s.setMapMalformedSeen).si = { s.si with sticky := { s.si.sticky with mapMalformedSeen := true } } := rfl
@[simp] theorem State.setMapMalformedSeen_tt (s : State) : (s.setMapMalformedSeen).tt = s.tt := rfl
@[simp] theorem State.setMapMalformedSeen_lm (s : State) : (s.setMapMalformedSeen).lm = s.lm := rfl
@[simp] theorem State.setMapMalformedSeen_ot (s : State) : (s.setMapMalformedSeen).ot = s.ot := rfl
@[simp] theorem State.setMapMalformedSeen_ac (s : State) : (s.setMapMalformedSeen).ac = s.ac := rfl
@[simp] theorem State.setMapMalformedSeen_mp (s : State) : (s.setMapMalformedSeen).mp = s.mp := rfl
@[simp] theorem State.setMapMalformedSeen_uq (s : State) : (s.setMapMalformedSeen).uq = s.uq := rfl
@[simp] theorem State.setMapMalformedSeen_mu (s : State) : (s.setMapMalformedSeen).mu = s.mu := rfl
@[simp] theorem State.setMapMalformedSeen_params (s : State) : (s.setMapMalformedSeen).params = s.params := rfl
@[simp] theorem State.setMapMalformedSeen_raceTick (s : State) : (s.setMapMalformedSeen).raceTick = s.raceTick := rfl

/-! ### setRegionViolationSeen -/

@[simp] theorem State.setRegionViolationSeen_pending (s : State) :
    (s.setRegionViolationSeen).pending = s.pending := rfl
@[simp] theorem State.setRegionViolationSeen_paths (s : State) : (s.setRegionViolationSeen).paths = s.paths := rfl
@[simp] theorem State.setRegionViolationSeen_insertion (s : State) :
    (s.setRegionViolationSeen).insertion = s.insertion := rfl
@[simp] theorem State.setRegionViolationSeen_si (s : State) :
    (s.setRegionViolationSeen).si = { s.si with sticky := { s.si.sticky with regionViolationSeen := true } } := rfl
@[simp] theorem State.setRegionViolationSeen_tt (s : State) : (s.setRegionViolationSeen).tt = s.tt := rfl
@[simp] theorem State.setRegionViolationSeen_lm (s : State) : (s.setRegionViolationSeen).lm = s.lm := rfl
@[simp] theorem State.setRegionViolationSeen_ot (s : State) : (s.setRegionViolationSeen).ot = s.ot := rfl
@[simp] theorem State.setRegionViolationSeen_ac (s : State) : (s.setRegionViolationSeen).ac = s.ac := rfl
@[simp] theorem State.setRegionViolationSeen_mp (s : State) : (s.setRegionViolationSeen).mp = s.mp := rfl
@[simp] theorem State.setRegionViolationSeen_uq (s : State) : (s.setRegionViolationSeen).uq = s.uq := rfl
@[simp] theorem State.setRegionViolationSeen_mu (s : State) : (s.setRegionViolationSeen).mu = s.mu := rfl
@[simp] theorem State.setRegionViolationSeen_params (s : State) : (s.setRegionViolationSeen).params = s.params := rfl
@[simp] theorem State.setRegionViolationSeen_raceTick (s : State) :
    (s.setRegionViolationSeen).raceTick = s.raceTick := rfl

/-! ### clearSticky -/

@[simp] theorem State.clearSticky_pending (s : State) : (s.clearSticky).pending = s.pending := rfl
@[simp] theorem State.clearSticky_paths (s : State) : (s.clearSticky).paths = s.paths := rfl
@[simp] theorem State.clearSticky_insertion (s : State) : (s.clearSticky).insertion = s.insertion := rfl
@[simp] theorem State.clearSticky_si (s : State) : (s.clearSticky).si = { s.si with sticky := Sticky.clear } := rfl
@[simp] theorem State.clearSticky_tt (s : State) : (s.clearSticky).tt = s.tt := rfl
@[simp] theorem State.clearSticky_lm (s : State) : (s.clearSticky).lm = s.lm := rfl
@[simp] theorem State.clearSticky_ot (s : State) : (s.clearSticky).ot = s.ot := rfl
@[simp] theorem State.clearSticky_ac (s : State) : (s.clearSticky).ac = s.ac := rfl
@[simp] theorem State.clearSticky_mp (s : State) : (s.clearSticky).mp = s.mp := rfl
@[simp] theorem State.clearSticky_uq (s : State) : (s.clearSticky).uq = s.uq := rfl
@[simp] theorem State.clearSticky_mu (s : State) : (s.clearSticky).mu = s.mu := rfl
@[simp] theorem State.clearSticky_params (s : State) : (s.clearSticky).params = s.params := rfl
@[simp] theorem State.clearSticky_raceTick (s : State) : (s.clearSticky).raceTick = s.raceTick := rfl

/-! ### setSum -/

@[simp] theorem State.setSum_pending (s : State) (sum : Nat) : (s.setSum sum).pending = s.pending := rfl
@[simp] theorem State.setSum_paths (s : State) (sum : Nat) : (s.setSum sum).paths = s.paths := rfl
@[simp] theorem State.setSum_insertion (s : State) (sum : Nat) : (s.setSum sum).insertion = s.insertion := rfl
@[simp] theorem State.setSum_si (s : State) (sum : Nat) : (s.setSum sum).si = s.si := rfl
@[simp] theorem State.setSum_tt (s : State) (sum : Nat) : (s.setSum sum).tt = s.tt := rfl
@[simp] theorem State.setSum_lm (s : State) (sum : Nat) : (s.setSum sum).lm = s.lm := rfl
@[simp] theorem State.setSum_ot (s : State) (sum : Nat) : (s.setSum sum).ot = s.ot := rfl
@[simp] theorem State.setSum_ac (s : State) (sum : Nat) : (s.setSum sum).ac = { s.ac with committedSum := sum } := rfl
@[simp] theorem State.setSum_mp (s : State) (sum : Nat) : (s.setSum sum).mp = s.mp := rfl
@[simp] theorem State.setSum_uq (s : State) (sum : Nat) : (s.setSum sum).uq = s.uq := rfl
@[simp] theorem State.setSum_mu (s : State) (sum : Nat) : (s.setSum sum).mu = s.mu := rfl
@[simp] theorem State.setSum_params (s : State) (sum : Nat) : (s.setSum sum).params = s.params := rfl
@[simp] theorem State.setSum_raceTick (s : State) (sum : Nat) : (s.setSum sum).raceTick = s.raceTick := rfl

/-! ### setWaitList -/

@[simp] theorem State.setWaitList_pending (s : State) (l : List Nat) : (s.setWaitList l).pending = s.pending := rfl
@[simp] theorem State.setWaitList_paths (s : State) (l : List Nat) : (s.setWaitList l).paths = s.paths := rfl
@[simp] theorem State.setWaitList_insertion (s : State) (l : List Nat) :
    (s.setWaitList l).insertion = s.insertion := rfl
@[simp] theorem State.setWaitList_si (s : State) (l : List Nat) : (s.setWaitList l).si = s.si := rfl
@[simp] theorem State.setWaitList_tt (s : State) (l : List Nat) : (s.setWaitList l).tt = s.tt := rfl
@[simp] theorem State.setWaitList_lm (s : State) (l : List Nat) : (s.setWaitList l).lm = s.lm := rfl
@[simp] theorem State.setWaitList_ot (s : State) (l : List Nat) : (s.setWaitList l).ot = s.ot := rfl
@[simp] theorem State.setWaitList_ac (s : State) (l : List Nat) :
    (s.setWaitList l).ac = { s.ac with waitList := l } := rfl
@[simp] theorem State.setWaitList_mp (s : State) (l : List Nat) : (s.setWaitList l).mp = s.mp := rfl
@[simp] theorem State.setWaitList_uq (s : State) (l : List Nat) : (s.setWaitList l).uq = s.uq := rfl
@[simp] theorem State.setWaitList_mu (s : State) (l : List Nat) : (s.setWaitList l).mu = s.mu := rfl
@[simp] theorem State.setWaitList_params (s : State) (l : List Nat) : (s.setWaitList l).params = s.params := rfl
@[simp] theorem State.setWaitList_raceTick (s : State) (l : List Nat) : (s.setWaitList l).raceTick = s.raceTick := rfl

/-! ### joinWaitList -/

@[simp] theorem State.joinWaitList_pending (s : State) (id : Nat) : (s.joinWaitList id).pending = s.pending := rfl
@[simp] theorem State.joinWaitList_paths (s : State) (id : Nat) : (s.joinWaitList id).paths = s.paths := rfl
@[simp] theorem State.joinWaitList_insertion (s : State) (id : Nat) :
    (s.joinWaitList id).insertion = s.insertion := rfl
@[simp] theorem State.joinWaitList_si (s : State) (id : Nat) : (s.joinWaitList id).si = s.si := rfl
@[simp] theorem State.joinWaitList_tt (s : State) (id : Nat) : (s.joinWaitList id).tt = s.tt := rfl
@[simp] theorem State.joinWaitList_lm (s : State) (id : Nat) : (s.joinWaitList id).lm = s.lm := rfl
@[simp] theorem State.joinWaitList_ot (s : State) (id : Nat) : (s.joinWaitList id).ot = s.ot := rfl
@[simp] theorem State.joinWaitList_ac (s : State) (id : Nat) :
    (s.joinWaitList id).ac = { s.ac with waitList := insertBy s.outranks id s.ac.waitList } := rfl
@[simp] theorem State.joinWaitList_mp (s : State) (id : Nat) : (s.joinWaitList id).mp = s.mp := rfl
@[simp] theorem State.joinWaitList_uq (s : State) (id : Nat) : (s.joinWaitList id).uq = s.uq := rfl
@[simp] theorem State.joinWaitList_mu (s : State) (id : Nat) : (s.joinWaitList id).mu = s.mu := rfl
@[simp] theorem State.joinWaitList_params (s : State) (id : Nat) : (s.joinWaitList id).params = s.params := rfl
@[simp] theorem State.joinWaitList_raceTick (s : State) (id : Nat) : (s.joinWaitList id).raceTick = s.raceTick := rfl

/-! ### leaveWaitList -/

@[simp] theorem State.leaveWaitList_pending (s : State) (id : Nat) : (s.leaveWaitList id).pending = s.pending := rfl
@[simp] theorem State.leaveWaitList_paths (s : State) (id : Nat) : (s.leaveWaitList id).paths = s.paths := rfl
@[simp] theorem State.leaveWaitList_insertion (s : State) (id : Nat) :
    (s.leaveWaitList id).insertion = s.insertion := rfl
@[simp] theorem State.leaveWaitList_si (s : State) (id : Nat) : (s.leaveWaitList id).si = s.si := rfl
@[simp] theorem State.leaveWaitList_tt (s : State) (id : Nat) : (s.leaveWaitList id).tt = s.tt := rfl
@[simp] theorem State.leaveWaitList_lm (s : State) (id : Nat) : (s.leaveWaitList id).lm = s.lm := rfl
@[simp] theorem State.leaveWaitList_ot (s : State) (id : Nat) : (s.leaveWaitList id).ot = s.ot := rfl
@[simp] theorem State.leaveWaitList_ac (s : State) (id : Nat) :
    (s.leaveWaitList id).ac = { s.ac with waitList := s.ac.waitList.filter (· ≠ id) } := rfl
@[simp] theorem State.leaveWaitList_mp (s : State) (id : Nat) : (s.leaveWaitList id).mp = s.mp := rfl
@[simp] theorem State.leaveWaitList_uq (s : State) (id : Nat) : (s.leaveWaitList id).uq = s.uq := rfl
@[simp] theorem State.leaveWaitList_mu (s : State) (id : Nat) : (s.leaveWaitList id).mu = s.mu := rfl
@[simp] theorem State.leaveWaitList_params (s : State) (id : Nat) : (s.leaveWaitList id).params = s.params := rfl
@[simp] theorem State.leaveWaitList_raceTick (s : State) (id : Nat) :
    (s.leaveWaitList id).raceTick = s.raceTick := rfl

/-! ### noteShed -/

@[simp] theorem State.noteShed_pending (s : State) (id : Nat) : (s.noteShed id).pending = s.pending := rfl
@[simp] theorem State.noteShed_paths (s : State) (id : Nat) : (s.noteShed id).paths = s.paths := rfl
@[simp] theorem State.noteShed_insertion (s : State) (id : Nat) : (s.noteShed id).insertion = s.insertion := rfl
@[simp] theorem State.noteShed_si (s : State) (id : Nat) : (s.noteShed id).si = s.si := rfl
@[simp] theorem State.noteShed_tt (s : State) (id : Nat) : (s.noteShed id).tt = s.tt := rfl
@[simp] theorem State.noteShed_lm (s : State) (id : Nat) : (s.noteShed id).lm = s.lm := rfl
@[simp] theorem State.noteShed_ot (s : State) (id : Nat) : (s.noteShed id).ot = s.ot := rfl
@[simp] theorem State.noteShed_ac (s : State) (id : Nat) :
    (s.noteShed id).ac = { s.ac with shedNote := s.ac.shedNote ++ [id] } := rfl
@[simp] theorem State.noteShed_mp (s : State) (id : Nat) : (s.noteShed id).mp = s.mp := rfl
@[simp] theorem State.noteShed_uq (s : State) (id : Nat) : (s.noteShed id).uq = s.uq := rfl
@[simp] theorem State.noteShed_mu (s : State) (id : Nat) : (s.noteShed id).mu = s.mu := rfl
@[simp] theorem State.noteShed_params (s : State) (id : Nat) : (s.noteShed id).params = s.params := rfl
@[simp] theorem State.noteShed_raceTick (s : State) (id : Nat) : (s.noteShed id).raceTick = s.raceTick := rfl

/-! ### setHeld -/

@[simp] theorem State.setHeld_pending (s : State) (h : Nat × Nat) : (s.setHeld h).pending = s.pending := rfl
@[simp] theorem State.setHeld_paths (s : State) (h : Nat × Nat) : (s.setHeld h).paths = s.paths := rfl
@[simp] theorem State.setHeld_insertion (s : State) (h : Nat × Nat) : (s.setHeld h).insertion = s.insertion := rfl
@[simp] theorem State.setHeld_si (s : State) (h : Nat × Nat) : (s.setHeld h).si = s.si := rfl
@[simp] theorem State.setHeld_tt (s : State) (h : Nat × Nat) : (s.setHeld h).tt = s.tt := rfl
@[simp] theorem State.setHeld_lm (s : State) (h : Nat × Nat) : (s.setHeld h).lm = s.lm := rfl
@[simp] theorem State.setHeld_ot (s : State) (h : Nat × Nat) : (s.setHeld h).ot = s.ot := rfl
@[simp] theorem State.setHeld_ac (s : State) (h : Nat × Nat) :
    (s.setHeld h).ac = { s.ac with heldLevel := h.1, holdCounter := h.2 } := rfl
@[simp] theorem State.setHeld_mp (s : State) (h : Nat × Nat) : (s.setHeld h).mp = s.mp := rfl
@[simp] theorem State.setHeld_uq (s : State) (h : Nat × Nat) : (s.setHeld h).uq = s.uq := rfl
@[simp] theorem State.setHeld_mu (s : State) (h : Nat × Nat) : (s.setHeld h).mu = s.mu := rfl
@[simp] theorem State.setHeld_params (s : State) (h : Nat × Nat) : (s.setHeld h).params = s.params := rfl
@[simp] theorem State.setHeld_raceTick (s : State) (h : Nat × Nat) : (s.setHeld h).raceTick = s.raceTick := rfl

/-! ### setStorm -/

@[simp] theorem State.setStorm_pending (s : State) (st : Option Storm) : (s.setStorm st).pending = s.pending := rfl
@[simp] theorem State.setStorm_paths (s : State) (st : Option Storm) : (s.setStorm st).paths = s.paths := rfl
@[simp] theorem State.setStorm_insertion (s : State) (st : Option Storm) :
    (s.setStorm st).insertion = s.insertion := rfl
@[simp] theorem State.setStorm_si (s : State) (st : Option Storm) : (s.setStorm st).si = s.si := rfl
@[simp] theorem State.setStorm_tt (s : State) (st : Option Storm) : (s.setStorm st).tt = s.tt := rfl
@[simp] theorem State.setStorm_lm (s : State) (st : Option Storm) : (s.setStorm st).lm = s.lm := rfl
@[simp] theorem State.setStorm_ot (s : State) (st : Option Storm) : (s.setStorm st).ot = s.ot := rfl
@[simp] theorem State.setStorm_ac (s : State) (st : Option Storm) :
    (s.setStorm st).ac = { s.ac with storm := st } := rfl
@[simp] theorem State.setStorm_mp (s : State) (st : Option Storm) : (s.setStorm st).mp = s.mp := rfl
@[simp] theorem State.setStorm_uq (s : State) (st : Option Storm) : (s.setStorm st).uq = s.uq := rfl
@[simp] theorem State.setStorm_mu (s : State) (st : Option Storm) : (s.setStorm st).mu = s.mu := rfl
@[simp] theorem State.setStorm_params (s : State) (st : Option Storm) : (s.setStorm st).params = s.params := rfl
@[simp] theorem State.setStorm_raceTick (s : State) (st : Option Storm) : (s.setStorm st).raceTick = s.raceTick := rfl

/-! ### computeRaw -/

@[simp] theorem State.computeRaw_pending (s : State) : (s.computeRaw).pending = s.pending := rfl
@[simp] theorem State.computeRaw_paths (s : State) : (s.computeRaw).paths = s.paths := rfl
@[simp] theorem State.computeRaw_insertion (s : State) : (s.computeRaw).insertion = s.insertion := rfl
@[simp] theorem State.computeRaw_si (s : State) : (s.computeRaw).si = s.si := rfl
@[simp] theorem State.computeRaw_tt (s : State) : (s.computeRaw).tt = s.tt := rfl
@[simp] theorem State.computeRaw_lm (s : State) : (s.computeRaw).lm = s.lm := rfl
@[simp] theorem State.computeRaw_ot (s : State) : (s.computeRaw).ot = s.ot := rfl
@[simp] theorem State.computeRaw_ac (s : State) :
    (s.computeRaw).ac = { s.ac with rawLevel := rawLevelOf s.ac.thresholds (permille s.outageCount s.provisionedCount) } := rfl
@[simp] theorem State.computeRaw_mp (s : State) : (s.computeRaw).mp = s.mp := rfl
@[simp] theorem State.computeRaw_uq (s : State) : (s.computeRaw).uq = s.uq := rfl
@[simp] theorem State.computeRaw_mu (s : State) : (s.computeRaw).mu = s.mu := rfl
@[simp] theorem State.computeRaw_params (s : State) : (s.computeRaw).params = s.params := rfl
@[simp] theorem State.computeRaw_raceTick (s : State) : (s.computeRaw).raceTick = s.raceTick := rfl

/-! ### computeBudget -/

@[simp] theorem State.computeBudget_pending (s : State) : (s.computeBudget).pending = s.pending := rfl
@[simp] theorem State.computeBudget_paths (s : State) : (s.computeBudget).paths = s.paths := rfl
@[simp] theorem State.computeBudget_insertion (s : State) : (s.computeBudget).insertion = s.insertion := rfl
@[simp] theorem State.computeBudget_si (s : State) : (s.computeBudget).si = s.si := rfl
@[simp] theorem State.computeBudget_tt (s : State) : (s.computeBudget).tt = s.tt := rfl
@[simp] theorem State.computeBudget_lm (s : State) : (s.computeBudget).lm = s.lm := rfl
@[simp] theorem State.computeBudget_ot (s : State) : (s.computeBudget).ot = s.ot := rfl
@[simp] theorem State.computeBudget_ac (s : State) :
    (s.computeBudget).ac = { s.ac with effLevel := s.levelNow, bEff := effectiveBudget s.ac.banks s.params s.levelNow } := rfl
@[simp] theorem State.computeBudget_mp (s : State) : (s.computeBudget).mp = s.mp := rfl
@[simp] theorem State.computeBudget_uq (s : State) : (s.computeBudget).uq = s.uq := rfl
@[simp] theorem State.computeBudget_mu (s : State) : (s.computeBudget).mu = s.mu := rfl
@[simp] theorem State.computeBudget_params (s : State) : (s.computeBudget).params = s.params := rfl
@[simp] theorem State.computeBudget_raceTick (s : State) : (s.computeBudget).raceTick = s.raceTick := rfl

/-! ### noteLost -/

@[simp] theorem State.noteLost_pending (s : State) (id : Nat) : (s.noteLost id).pending = s.pending := rfl
@[simp] theorem State.noteLost_paths (s : State) (id : Nat) : (s.noteLost id).paths = s.paths := rfl
@[simp] theorem State.noteLost_insertion (s : State) (id : Nat) : (s.noteLost id).insertion = s.insertion := rfl
@[simp] theorem State.noteLost_si (s : State) (id : Nat) : (s.noteLost id).si = s.si := rfl
@[simp] theorem State.noteLost_tt (s : State) (id : Nat) : (s.noteLost id).tt = s.tt := rfl
@[simp] theorem State.noteLost_lm (s : State) (id : Nat) : (s.noteLost id).lm = s.lm := rfl
@[simp] theorem State.noteLost_ot (s : State) (id : Nat) :
    (s.noteLost id).ot = { lostNow := s.ot.lostNow ++ [id] } := rfl
@[simp] theorem State.noteLost_ac (s : State) (id : Nat) : (s.noteLost id).ac = s.ac := rfl
@[simp] theorem State.noteLost_mp (s : State) (id : Nat) : (s.noteLost id).mp = s.mp := rfl
@[simp] theorem State.noteLost_uq (s : State) (id : Nat) : (s.noteLost id).uq = s.uq := rfl
@[simp] theorem State.noteLost_mu (s : State) (id : Nat) : (s.noteLost id).mu = s.mu := rfl
@[simp] theorem State.noteLost_params (s : State) (id : Nat) : (s.noteLost id).params = s.params := rfl
@[simp] theorem State.noteLost_raceTick (s : State) (id : Nat) : (s.noteLost id).raceTick = s.raceTick := rfl

/-! ### setMapFigures -/

@[simp] theorem State.setMapFigures_pending (s : State) (polls slots : Nat) :
    (s.setMapFigures polls slots).pending = s.pending := rfl
@[simp] theorem State.setMapFigures_paths (s : State) (polls slots : Nat) :
    (s.setMapFigures polls slots).paths = s.paths := rfl
@[simp] theorem State.setMapFigures_insertion (s : State) (polls slots : Nat) :
    (s.setMapFigures polls slots).insertion = s.insertion := rfl
@[simp] theorem State.setMapFigures_si (s : State) (polls slots : Nat) :
    (s.setMapFigures polls slots).si = s.si := rfl
@[simp] theorem State.setMapFigures_tt (s : State) (polls slots : Nat) :
    (s.setMapFigures polls slots).tt = s.tt := rfl
@[simp] theorem State.setMapFigures_lm (s : State) (polls slots : Nat) :
    (s.setMapFigures polls slots).lm = s.lm := rfl
@[simp] theorem State.setMapFigures_ot (s : State) (polls slots : Nat) :
    (s.setMapFigures polls slots).ot = s.ot := rfl
@[simp] theorem State.setMapFigures_ac (s : State) (polls slots : Nat) :
    (s.setMapFigures polls slots).ac = s.ac := rfl
@[simp] theorem State.setMapFigures_mp (s : State) (polls slots : Nat) :
    (s.setMapFigures polls slots).mp = { pollsPlaced := polls, reclaimedSlots := slots } := rfl
@[simp] theorem State.setMapFigures_uq (s : State) (polls slots : Nat) :
    (s.setMapFigures polls slots).uq = s.uq := rfl
@[simp] theorem State.setMapFigures_mu (s : State) (polls slots : Nat) :
    (s.setMapFigures polls slots).mu = s.mu := rfl
@[simp] theorem State.setMapFigures_params (s : State) (polls slots : Nat) :
    (s.setMapFigures polls slots).params = s.params := rfl
@[simp] theorem State.setMapFigures_raceTick (s : State) (polls slots : Nat) :
    (s.setMapFigures polls slots).raceTick = s.raceTick := rfl

/-! ### setUnlisted -/

@[simp] theorem State.setUnlisted_pending (s : State) (q : List UnlistedEntry) :
    (s.setUnlisted q).pending = s.pending := rfl
@[simp] theorem State.setUnlisted_paths (s : State) (q : List UnlistedEntry) :
    (s.setUnlisted q).paths = s.paths := rfl
@[simp] theorem State.setUnlisted_insertion (s : State) (q : List UnlistedEntry) :
    (s.setUnlisted q).insertion = s.insertion := rfl
@[simp] theorem State.setUnlisted_si (s : State) (q : List UnlistedEntry) : (s.setUnlisted q).si = s.si := rfl
@[simp] theorem State.setUnlisted_tt (s : State) (q : List UnlistedEntry) : (s.setUnlisted q).tt = s.tt := rfl
@[simp] theorem State.setUnlisted_lm (s : State) (q : List UnlistedEntry) : (s.setUnlisted q).lm = s.lm := rfl
@[simp] theorem State.setUnlisted_ot (s : State) (q : List UnlistedEntry) : (s.setUnlisted q).ot = s.ot := rfl
@[simp] theorem State.setUnlisted_ac (s : State) (q : List UnlistedEntry) : (s.setUnlisted q).ac = s.ac := rfl
@[simp] theorem State.setUnlisted_mp (s : State) (q : List UnlistedEntry) : (s.setUnlisted q).mp = s.mp := rfl
@[simp] theorem State.setUnlisted_uq (s : State) (q : List UnlistedEntry) :
    (s.setUnlisted q).uq = { s.uq with queue := q } := rfl
@[simp] theorem State.setUnlisted_mu (s : State) (q : List UnlistedEntry) : (s.setUnlisted q).mu = s.mu := rfl
@[simp] theorem State.setUnlisted_params (s : State) (q : List UnlistedEntry) :
    (s.setUnlisted q).params = s.params := rfl
@[simp] theorem State.setUnlisted_raceTick (s : State) (q : List UnlistedEntry) :
    (s.setUnlisted q).raceTick = s.raceTick := rfl

/-! ### setOverrun -/

@[simp] theorem State.setOverrun_pending (s : State) (b : Bool) : (s.setOverrun b).pending = s.pending := rfl
@[simp] theorem State.setOverrun_paths (s : State) (b : Bool) : (s.setOverrun b).paths = s.paths := rfl
@[simp] theorem State.setOverrun_insertion (s : State) (b : Bool) : (s.setOverrun b).insertion = s.insertion := rfl
@[simp] theorem State.setOverrun_si (s : State) (b : Bool) : (s.setOverrun b).si = s.si := rfl
@[simp] theorem State.setOverrun_tt (s : State) (b : Bool) : (s.setOverrun b).tt = s.tt := rfl
@[simp] theorem State.setOverrun_lm (s : State) (b : Bool) : (s.setOverrun b).lm = s.lm := rfl
@[simp] theorem State.setOverrun_ot (s : State) (b : Bool) : (s.setOverrun b).ot = s.ot := rfl
@[simp] theorem State.setOverrun_ac (s : State) (b : Bool) : (s.setOverrun b).ac = s.ac := rfl
@[simp] theorem State.setOverrun_mp (s : State) (b : Bool) : (s.setOverrun b).mp = s.mp := rfl
@[simp] theorem State.setOverrun_uq (s : State) (b : Bool) : (s.setOverrun b).uq = { s.uq with overrun := b } := rfl
@[simp] theorem State.setOverrun_mu (s : State) (b : Bool) : (s.setOverrun b).mu = s.mu := rfl
@[simp] theorem State.setOverrun_params (s : State) (b : Bool) : (s.setOverrun b).params = s.params := rfl
@[simp] theorem State.setOverrun_raceTick (s : State) (b : Bool) : (s.setOverrun b).raceTick = s.raceTick := rfl

/-! ### nextRace -/

@[simp] theorem State.nextRace_pending (s : State) : (s.nextRace).pending = s.pending := rfl
@[simp] theorem State.nextRace_paths (s : State) : (s.nextRace).paths = s.paths := rfl
@[simp] theorem State.nextRace_insertion (s : State) : (s.nextRace).insertion = s.insertion := rfl
@[simp] theorem State.nextRace_si (s : State) : (s.nextRace).si = s.si := rfl
@[simp] theorem State.nextRace_tt (s : State) : (s.nextRace).tt = s.tt := rfl
@[simp] theorem State.nextRace_lm (s : State) : (s.nextRace).lm = s.lm := rfl
@[simp] theorem State.nextRace_ot (s : State) : (s.nextRace).ot = s.ot := rfl
@[simp] theorem State.nextRace_ac (s : State) : (s.nextRace).ac = s.ac := rfl
@[simp] theorem State.nextRace_mp (s : State) : (s.nextRace).mp = s.mp := rfl
@[simp] theorem State.nextRace_uq (s : State) : (s.nextRace).uq = s.uq := rfl
@[simp] theorem State.nextRace_mu (s : State) : (s.nextRace).mu = s.mu := rfl
@[simp] theorem State.nextRace_params (s : State) : (s.nextRace).params = s.params := rfl
@[simp] theorem State.nextRace_raceTick (s : State) : (s.nextRace).raceTick = s.raceTick + 1 := rfl

end Sys2Proof.Machine
end

