-- ==== Sys2Proof/Laws/Tables.lean ====
section
/-! SUPPORT. The tables kept by ascending key, and the records of the Terminal Table read after each update of them. -/

namespace Sys2Proof.Machine

/-! ## Tables by key -/

theorem assocGet_map {α β : Type} (f : Nat → α → β) (l : List (Nat × α)) (k : Nat) :
    assocGet (l.map fun e => (e.1, f e.1 e.2)) k = (assocGet l k).map (f k) := by
  induction l with
  | nil => rfl
  | cons e l ih =>
    simp only [List.map_cons, assocGet]
    split
    · simp [*]
    · exact ih

theorem assocGet_assocUpdate {α : Type} (l : List (Nat × α)) (key : Nat) (f : α → α) (k : Nat) :
    assocGet (assocUpdate l key f) k = if k = key then (assocGet l k).map f else assocGet l k := by
  induction l with
  | nil => simp [assocUpdate, assocGet]
  | cons e l ih =>
    have ih' : assocGet (l.map fun e => if e.1 = key then (e.1, f e.2) else e) k = _ := ih
    by_cases he : e.1 = key <;> by_cases hk : e.1 = k <;> simp_all [assocUpdate, assocGet]

theorem assocGet_assocPut {α : Type} (l : List (Nat × α)) (key : Nat) (v : α) (k : Nat) :
    assocGet (assocPut l key v) k = if k = key then some v else assocGet l k := by
  induction l with
  | nil => simp [assocPut, assocGet, eq_comm]
  | cons e l ih => simp only [assocPut]; split_ifs <;> simp_all [assocGet] <;> grind

theorem assocGet_assocErase {α : Type} (l : List (Nat × α)) (key : Nat) (k : Nat) :
    assocGet (assocErase l key) k = if k = key then none else assocGet l k := by
  induction l with
  | nil => simp [assocErase, assocGet]
  | cons e l ih =>
    have ih' : assocGet (l.filter fun e => e.1 ≠ key) k = _ := ih
    simp only [assocErase, List.filter_cons, assocGet]
    split_ifs <;> simp_all [assocGet]

theorem assocGet_eq_none {α : Type} {l : List (Nat × α)} {key : Nat} :
    assocGet l key = none ↔ key ∉ l.map (·.1) := by
  induction l with
  | nil => simp [assocGet]
  | cons e l ih =>
    simp only [assocGet, List.map_cons, List.mem_cons, not_or, ← ih]
    split <;> simp_all [eq_comm]

theorem assocGet_mem {α : Type} {l : List (Nat × α)} {key : Nat} {v : α} (h : assocGet l key = some v) :
    (key, v) ∈ l := by
  induction l with
  | nil => simp [assocGet] at h
  | cons e l ih =>
    simp only [assocGet] at h
    split at h
    · next hk => exact List.mem_cons.2 (.inl (by cases e; simp_all))
    · exact List.mem_cons_of_mem _ (ih h)

theorem assocGet_of_mem {α : Type} {l : List (Nat × α)} (hs : (l.map (·.1)).Pairwise (· < ·)) {key : Nat} {v : α}
    (h : (key, v) ∈ l) : assocGet l key = some v := by
  induction l with
  | nil => simp at h
  | cons e l ih =>
    simp only [List.map_cons, List.pairwise_cons, List.mem_map] at hs
    rcases List.mem_cons.1 h with rfl | h
    · simp [assocGet]
    · have : e.1 ≠ key := Nat.ne_of_lt (hs.1 _ ⟨_, h, rfl⟩)
      simp [assocGet, this, ih hs.2 h]

@[simp] theorem keys_assocUpdate {α : Type} (l : List (Nat × α)) (key : Nat) (f : α → α) :
    (assocUpdate l key f).map (·.1) = l.map (·.1) := by
  simp only [assocUpdate, List.map_map]
  exact List.map_congr_left fun e _ => by simp only [Function.comp]; split <;> rfl

theorem keys_assocErase {α : Type} (l : List (Nat × α)) (key : Nat) :
    (assocErase l key).map (·.1) = (l.map (·.1)).filter (· ≠ key) := by
  simp only [assocErase, List.filter_map]; rfl

theorem mem_keys_assocPut {α : Type} (l : List (Nat × α)) (key : Nat) (v : α) (k : Nat) :
    k ∈ (assocPut l key v).map (·.1) ↔ k = key ∨ k ∈ l.map (·.1) := by
  rw [← not_iff_not, not_or, ← assocGet_eq_none, ← assocGet_eq_none, assocGet_assocPut]
  split <;> simp_all

theorem keys_assocPut_sorted {α : Type} {l : List (Nat × α)} (hs : (l.map (·.1)).Pairwise (· < ·)) (key : Nat) (v : α) :
    ((assocPut l key v).map (·.1)).Pairwise (· < ·) := by
  induction l with
  | nil => simp [assocPut]
  | cons e l ih =>
    simp only [List.map_cons, List.pairwise_cons] at hs
    simp only [assocPut]
    split_ifs with h1 h2
    · simp only [List.map_cons, List.pairwise_cons, List.mem_cons]
      refine ⟨fun k hk => hk.elim (fun h => h ▸ h1) fun h => h1.trans (hs.1 _ h), hs.1, hs.2⟩
    · simp only [List.map_cons, List.pairwise_cons]
      exact ⟨fun k hk => h2 ▸ hs.1 _ hk, hs.2⟩
    · simp only [List.map_cons, List.pairwise_cons]
      refine ⟨fun k hk => ?_, ih hs.2⟩
      rcases (mem_keys_assocPut l key v k).1 hk with rfl | hk
      · omega
      · exact hs.1 _ hk

/-! ## Records -/

/-- Two updates of one record are one update. -/
theorem assocUpdate_assocUpdate {α : Type} (l : List (Nat × α)) (key : Nat) (f g : α → α) :
    assocUpdate (assocUpdate l key f) key g = assocUpdate l key (g ∘ f) := by
  simp only [assocUpdate, List.map_map]
  exact List.map_congr_left fun e _ => by simp only [Function.comp]; split <;> simp_all

theorem assocUpdate_congr {α : Type} {l : List (Nat × α)} (hs : (l.map (·.1)).Pairwise (· < ·)) {key : Nat} {v : α}
    (h : assocGet l key = some v) {f g : α → α} (hfg : f v = g v) : assocUpdate l key f = assocUpdate l key g := by
  refine List.map_congr_left fun e he => ?_
  by_cases hk : e.1 = key
  · have := assocGet_of_mem hs (show (key, e.2) ∈ l from hk ▸ he)
    simp_all
  · simp [hk]

@[simp] theorem State.ids_update (s : State) (id : Nat) (f : Record → Record) : (s.update id f).ids = s.ids :=
  keys_assocUpdate _ _ _

@[simp] theorem State.ids_put (s : State) (id : Nat) (r : Record) : (s.put id r).ids = s.ids :=
  keys_assocUpdate s.tt.records id fun _ => r

@[simp] theorem State.ids_updateAll (s : State) (f : Nat → Record → Record) : (s.updateAll f).ids = s.ids := by
  simp [State.ids]

theorem State.record?_update (s : State) (id : Nat) (f : Record → Record) (k : Nat) :
    (s.update id f).record? k = if k = id then (s.record? k).map f else s.record? k :=
  assocGet_assocUpdate _ _ _ _

theorem State.record?_put (s : State) (id : Nat) (r : Record) (k : Nat) :
    (s.put id r).record? k = if k = id then (s.record? k).map (fun _ => r) else s.record? k :=
  assocGet_assocUpdate s.tt.records id (fun _ => r) k

theorem State.record?_updateAll (s : State) (f : Nat → Record → Record) (k : Nat) :
    (s.updateAll f).record? k = (s.record? k).map (f k) :=
  assocGet_map _ _ _

theorem State.record?_congr {s t : State} (h : t.tt.records = s.tt.records) (k : Nat) : t.record? k = s.record? k := by
  simp [State.record?, h]

theorem State.record?_mem {s : State} {id : Nat} {r : Record} (h : s.record? id = some r) : (id, r) ∈ s.tt.records :=
  assocGet_mem h

theorem State.mem_record? {s : State} (hs : s.recordsSound) {id : Nat} {r : Record} (h : (id, r) ∈ s.tt.records) :
    s.record? id = some r := assocGet_of_mem hs.1 h

/-- An update of a record that is known is its replacement (`put`). -/
theorem State.update_eq_put {s : State} (hs : s.recordsSound) {id : Nat} {r : Record} (h : s.record? id = some r)
    (f : Record → Record) : s.update id f = s.put id (f r) := by
  simp only [State.update, State.setRecords, State.put]
  rw [assocUpdate_congr hs.1 h (f := f) (g := fun _ => f r) rfl]

theorem State.put_put (s : State) (id : Nat) (r q : Record) : (s.put id r).put id q = s.put id q := by
  simp only [State.put]; rw [assocUpdate_assocUpdate]; rfl

theorem State.withRecord_of_record? {s : State} {id : Nat} {r : Record} (h : s.record? id = some r)
    (f : Record → State) : s.withRecord id f = f r := by simp [State.withRecord, h]

theorem State.withRecord_vacant {s : State} {id : Nat} (h : s.record? id = none) (f : Record → State) :
    s.withRecord id f = s := by simp [State.withRecord, h]

theorem State.recordsSound_congr {s t : State} (h : t.ids = s.ids) : t.recordsSound ↔ s.recordsSound := by
  simp [State.recordsSound, h]

end Sys2Proof.Machine
end

