-- ==== Sys2Proof/Laws/Order.lean ====
section
/-! SUPPORT. Priority order and the lists kept by it: the wait list, the victims, the candidates, the messages. -/

namespace Sys2Proof.Machine

/-! ## A strict order on distinct IDs -/

/-- Lexicographic order on (class, ID). -/
theorem precedes_iff (a b : Nat × Nat) : precedes a b = true ↔ a.1 < b.1 ∨ (a.1 = b.1 ∧ a.2 < b.2) := by
  simp [precedes]

theorem State.outranks_irrefl (s : State) (a : Nat) : s.outranks a a = false := by
  simp [State.outranks, precedes]

theorem State.outranks_trans (s : State) {a b c : Nat} (h₁ : s.outranks a b = true) (h₂ : s.outranks b c = true) :
    s.outranks a c = true := by
  simp only [State.outranks, precedes_iff] at *
  omega

theorem State.outranks_total (s : State) {a b : Nat} (h : a ≠ b) :
    s.outranks a b = true ∨ s.outranks b a = true := by
  simp only [State.outranks, precedes_iff, State.priorityKey]
  omega

theorem State.outranks_asymm (s : State) {a b : Nat} (h : s.outranks a b = true) : s.outranks b a = false := by
  by_contra hc
  have := s.outranks_trans h (by simpa using hc)
  simp [s.outranks_irrefl] at this

/-- Priority order reads the classes of the records alone. -/
theorem State.outranks_congr {s t : State}
    (h : ∀ id, (t.record? id).map (·.cls) = (s.record? id).map (·.cls)) : t.outranks = s.outranks := by
  have key : ∀ id, t.priorityKey id = s.priorityKey id := fun id => by
    have := congrArg (Option.map Cls.code) (h id)
    simp only [Option.map_map] at this
    simp only [State.priorityKey]
    exact congrArg (fun o => (Option.getD o 3, id)) this
  funext a b
  simp [State.outranks, key]

/-! ## Inserting and sorting -/

theorem insertBy_perm (before : Nat → Nat → Bool) (id : Nat) (l : List Nat) :
    (insertBy before id l).Perm (id :: l) := by
  induction l with
  | nil => exact .refl _
  | cons x l ih =>
    simp only [insertBy]
    split
    · exact .refl _
    · exact (ih.cons x).trans (.swap _ _ _)

@[simp] theorem mem_insertBy (before : Nat → Nat → Bool) (id k : Nat) (l : List Nat) :
    k ∈ insertBy before id l ↔ k = id ∨ k ∈ l := by
  rw [(insertBy_perm before id l).mem_iff, List.mem_cons]

theorem sortBy_perm (before : Nat → Nat → Bool) (ids : List Nat) : (sortBy before ids).Perm ids := by
  induction ids with
  | nil => exact .refl _
  | cons x l ih => exact (insertBy_perm _ _ _).trans (ih.cons x)

@[simp] theorem mem_sortBy (before : Nat → Nat → Bool) (k : Nat) (ids : List Nat) :
    k ∈ sortBy before ids ↔ k ∈ ids := (sortBy_perm before ids).mem_iff

/-- An ID inserted where a list in priority order does not hold it leaves the list in priority order. -/
theorem State.insertBy_ordered (s : State) {id : Nat} {l : List Nat} (hn : id ∉ l)
    (h : l.Pairwise fun a b => s.outranks a b = true) :
    (insertBy s.outranks id l).Pairwise fun a b => s.outranks a b = true := by
  induction l with
  | nil => simp [insertBy]
  | cons x l ih =>
    rw [List.pairwise_cons] at h
    simp only [List.mem_cons, not_or] at hn
    simp only [insertBy]
    split
    · next hx =>
      refine List.pairwise_cons.2 ⟨fun y hy => ?_, List.pairwise_cons.2 h⟩
      rcases List.mem_cons.1 hy with rfl | hy
      · exact hx
      · exact s.outranks_trans hx (h.1 y hy)
    · next hx =>
      refine List.pairwise_cons.2 ⟨fun y hy => ?_, ih hn.2 h.2⟩
      rcases (mem_insertBy _ _ _ _).1 hy with rfl | hy
      · exact (s.outranks_total hn.1).resolve_left hx
      · exact h.1 y hy

theorem State.sortBy_ordered (s : State) {ids : List Nat} (hn : ids.Nodup) :
    (sortBy s.outranks ids).Pairwise fun a b => s.outranks a b = true := by
  induction ids with
  | nil => exact .nil
  | cons x l ih =>
    rw [List.nodup_cons] at hn
    exact s.insertBy_ordered (fun h => hn.1 ((mem_sortBy _ _ _).1 h)) (ih hn.2)

/-! ## The provisioned IDs in priority order -/

theorem State.ids_nodup {s : State} (hs : s.recordsSound) : s.ids.Nodup :=
  hs.1.imp fun h => Nat.ne_of_lt h

theorem State.mem_inPriority {s : State} (hs : s.recordsSound) (p : Record → Bool) (id : Nat) :
    id ∈ s.inPriority p ↔ ∃ r, s.record? id = some r ∧ p r = true := by
  simp only [State.inPriority, mem_sortBy, List.mem_map, List.mem_filter]
  constructor
  · rintro ⟨⟨k, r⟩, ⟨hm, hp⟩, rfl⟩
    exact ⟨r, State.mem_record? hs hm, hp⟩
  · rintro ⟨r, hr, hp⟩
    exact ⟨(id, r), ⟨State.record?_mem hr, hp⟩, rfl⟩

theorem State.inPriority_ordered {s : State} (hs : s.recordsSound) (p : Record → Bool) :
    (s.inPriority p).Pairwise fun a b => s.outranks a b = true :=
  s.sortBy_ordered ((State.ids_nodup hs).sublist ((List.filter_sublist (l := s.tt.records)).map (·.1)))

/-- A victim is a record that meets the condition, and every other such record stands before it in priority order. -/
theorem State.victim?_spec {s : State} (hs : s.recordsSound) {p : Record → Bool} {id : Nat}
    (h : s.victim? p = some id) :
    (∃ r, s.record? id = some r ∧ p r = true) ∧
      ∀ j q, s.record? j = some q → p q = true → j ≠ id → s.outranks j id = true := by
  have hm := (State.mem_inPriority hs p id).1 (List.mem_of_getLast? h)
  refine ⟨hm, fun j q hj hp hne => ?_⟩
  have hj' := (State.mem_inPriority hs p j).2 ⟨q, hj, hp⟩
  obtain ⟨l, hl⟩ := List.getLast?_eq_some_iff.1 h
  have ho := State.inPriority_ordered hs p
  rw [hl] at hj' ho
  rw [List.pairwise_append] at ho
  rcases List.mem_append.1 hj' with hj' | hj'
  · exact ho.2.2 j hj' id (by simp)
  · simp at hj'; exact absurd hj' hne

theorem State.victim?_eq_none {s : State} (hs : s.recordsSound) {p : Record → Bool} :
    s.victim? p = none ↔ ∀ j q, s.record? j = some q → p q = false := by
  rw [State.victim?, List.getLast?_eq_none_iff, List.eq_nil_iff_forall_not_mem]
  simp only [State.mem_inPriority hs, not_exists, not_and, Bool.not_eq_true]

end Sys2Proof.Machine
end

