-- ==== Sys2Proof/Laws/Engine.lean ====
section
/-! SUPPORT. What the operations every block shares can do, said once for each: queuing a notice, shedding one terminal,
losing one terminal, and what each of them leaves alone. -/

namespace Sys2Proof.Machine

/-! ## Queuing a notice (R177) -/

/-- A notice changes the Notice Queue, the gap mark and NOTICES_DROPPED alone. -/
theorem State.notify_eq (s : State) (kind : NoticeKind) (id : Option Nat) (values : List Int) :
    ∃ notices gap dropped, s.notify kind id values =
      { s with
        mu := { s.mu with notices := notices, gapPending := gap }
        si := { s.si with sticky := { s.si.sticky with noticesDropped := dropped } } } := by
  simp only [State.notify]
  split_ifs
  · exact ⟨_, _, _, rfl⟩
  · exact ⟨_, _, _, rfl⟩
  · exact ⟨_, _, _, rfl⟩

section
variable (s : State) (kind : NoticeKind) (id : Option Nat) (values : List Int)

@[simp] theorem State.notify_pending : (s.notify kind id values).pending = s.pending := by
  obtain ⟨_, _, _, h⟩ := s.notify_eq kind id values; rw [h]
@[simp] theorem State.notify_paths : (s.notify kind id values).paths = s.paths := by
  obtain ⟨_, _, _, h⟩ := s.notify_eq kind id values; rw [h]
@[simp] theorem State.notify_insertion : (s.notify kind id values).insertion = s.insertion := by
  obtain ⟨_, _, _, h⟩ := s.notify_eq kind id values; rw [h]
@[simp] theorem State.notify_tt : (s.notify kind id values).tt = s.tt := by
  obtain ⟨_, _, _, h⟩ := s.notify_eq kind id values; rw [h]
@[simp] theorem State.notify_lm : (s.notify kind id values).lm = s.lm := by
  obtain ⟨_, _, _, h⟩ := s.notify_eq kind id values; rw [h]
@[simp] theorem State.notify_ot : (s.notify kind id values).ot = s.ot := by
  obtain ⟨_, _, _, h⟩ := s.notify_eq kind id values; rw [h]
@[simp] theorem State.notify_ac : (s.notify kind id values).ac = s.ac := by
  obtain ⟨_, _, _, h⟩ := s.notify_eq kind id values; rw [h]
@[simp] theorem State.notify_mp : (s.notify kind id values).mp = s.mp := by
  obtain ⟨_, _, _, h⟩ := s.notify_eq kind id values; rw [h]
@[simp] theorem State.notify_uq : (s.notify kind id values).uq = s.uq := by
  obtain ⟨_, _, _, h⟩ := s.notify_eq kind id values; rw [h]
@[simp] theorem State.notify_params : (s.notify kind id values).params = s.params := by
  obtain ⟨_, _, _, h⟩ := s.notify_eq kind id values; rw [h]
@[simp] theorem State.notify_raceTick : (s.notify kind id values).raceTick = s.raceTick := by
  obtain ⟨_, _, _, h⟩ := s.notify_eq kind id values; rw [h]
@[simp] theorem State.notify_mode : (s.notify kind id values).si.mode = s.si.mode := by
  obtain ⟨_, _, _, h⟩ := s.notify_eq kind id values; rw [h]
@[simp] theorem State.notify_markerCount : (s.notify kind id values).si.markerCount = s.si.markerCount := by
  obtain ⟨_, _, _, h⟩ := s.notify_eq kind id values; rw [h]
@[simp] theorem State.notify_frameNumber : (s.notify kind id values).si.frameNumber = s.si.frameNumber := by
  obtain ⟨_, _, _, h⟩ := s.notify_eq kind id values; rw [h]
@[simp] theorem State.notify_watchdog : (s.notify kind id values).si.watchdog = s.si.watchdog := by
  obtain ⟨_, _, _, h⟩ := s.notify_eq kind id values; rw [h]
@[simp] theorem State.notify_inFlight : (s.notify kind id values).mu.inFlight = s.mu.inFlight := by
  obtain ⟨_, _, _, h⟩ := s.notify_eq kind id values; rw [h]
@[simp] theorem State.notify_mask : (s.notify kind id values).mu.mask = s.mu.mask := by
  obtain ⟨_, _, _, h⟩ := s.notify_eq kind id values; rw [h]

end

/-- Queuing a notice keeps the bound of the Notice Queue (R176). -/
theorem State.notify_noticesSound {s : State} (h : s.noticesSound) (kind : NoticeKind) (id : Option Nat)
    (values : List Int) : (s.notify kind id values).noticesSound := by
  simp only [State.notify]
  split
  · exact h
  · split
    · exact h
    · next hn => simp only [State.noticesSound, List.length_append, List.length_singleton]; omega

@[simp] theorem State.record?_notify (s : State) (kind : NoticeKind) (id : Option Nat) (values : List Int) (k : Nat) :
    (s.notify kind id values).record? k = s.record? k := State.record?_congr (by simp) k

/-! ## What one operation on records leaves alone -/

/-- `t` differs from `s` in records, accounts, notes and notices alone: no operation of LM, OT, RU or AC on a record reaches
any other block, the ports, the queues of cells and commands, or SI's mode, count, frame number and watchdog. -/
structure State.EngineOnly (s t : State) : Prop where
  pending : t.pending = s.pending
  paths : t.paths = s.paths
  insertion : t.insertion = s.insertion
  mode : t.si.mode = s.si.mode
  markerCount : t.si.markerCount = s.si.markerCount
  frameNumber : t.si.frameNumber = s.si.frameNumber
  watchdog : t.si.watchdog = s.si.watchdog
  ids : t.ids = s.ids
  stationMap : t.tt.stationMap = s.tt.stationMap
  lm : t.lm = s.lm
  thresholds : t.ac.thresholds = s.ac.thresholds
  levelHold : t.ac.levelHold = s.ac.levelHold
  mp : t.mp = s.mp
  uq : t.uq = s.uq
  inFlight : t.mu.inFlight = s.mu.inFlight
  mask : t.mu.mask = s.mu.mask
  params : t.params = s.params
  raceTick : t.raceTick = s.raceTick

theorem State.EngineOnly.rfl' (s : State) : s.EngineOnly s := by constructor <;> rfl

theorem State.EngineOnly.trans {s t u : State} (h₁ : s.EngineOnly t) (h₂ : t.EngineOnly u) : s.EngineOnly u := by
  constructor
  · exact h₂.pending.trans h₁.pending
  · exact h₂.paths.trans h₁.paths
  · exact h₂.insertion.trans h₁.insertion
  · exact h₂.mode.trans h₁.mode
  · exact h₂.markerCount.trans h₁.markerCount
  · exact h₂.frameNumber.trans h₁.frameNumber
  · exact h₂.watchdog.trans h₁.watchdog
  · exact h₂.ids.trans h₁.ids
  · exact h₂.stationMap.trans h₁.stationMap
  · exact h₂.lm.trans h₁.lm
  · exact h₂.thresholds.trans h₁.thresholds
  · exact h₂.levelHold.trans h₁.levelHold
  · exact h₂.mp.trans h₁.mp
  · exact h₂.uq.trans h₁.uq
  · exact h₂.inFlight.trans h₁.inFlight
  · exact h₂.mask.trans h₁.mask
  · exact h₂.params.trans h₁.params
  · exact h₂.raceTick.trans h₁.raceTick

theorem State.engineOnly_notify (s : State) (kind : NoticeKind) (id : Option Nat) (values : List Int) :
    s.EngineOnly (s.notify kind id values) := by constructor <;> simp [State.ids]

theorem State.engineOnly_update (s : State) (id : Nat) (f : Record → Record) : s.EngineOnly (s.update id f) := by
  constructor <;> simp

theorem State.engineOnly_updateAll (s : State) (f : Nat → Record → Record) : s.EngineOnly (s.updateAll f) := by
  constructor <;> simp

theorem State.engineOnly_setSum (s : State) (sum : Nat) : s.EngineOnly (s.setSum sum) := by
  constructor <;> simp [State.ids]

theorem State.engineOnly_setWaitList (s : State) (l : List Nat) : s.EngineOnly (s.setWaitList l) := by
  constructor <;> simp [State.ids]

theorem State.engineOnly_joinWaitList (s : State) (id : Nat) : s.EngineOnly (s.joinWaitList id) :=
  s.engineOnly_setWaitList _

theorem State.engineOnly_leaveWaitList (s : State) (id : Nat) : s.EngineOnly (s.leaveWaitList id) :=
  s.engineOnly_setWaitList _

theorem State.engineOnly_noteShed (s : State) (id : Nat) : s.EngineOnly (s.noteShed id) := by
  constructor <;> simp [State.ids]

theorem State.engineOnly_noteLost (s : State) (id : Nat) : s.EngineOnly (s.noteLost id) := by
  constructor <;> simp [State.ids]

/-! ## Shedding (R126, R127) -/

/-- Shedding one terminal: its record, the sum, its place on the wait list, the notice, and the note where AC's marker
operation sheds it. -/
theorem State.shedTerminal_of_record {s : State} (hs : s.recordsSound) {id : Nat} {r : Record}
    (h : s.record? id = some r) (noted : Bool) :
    s.shedTerminal noted id =
      (let t := State.notify (State.put { s with ac := { s.ac with committedSum := s.ac.committedSum - r.cost } } id
          (shedRecord s.si.markerCount r)) .terminalShed (some id) [r.cost]
       { t with ac := { t.ac with
          waitList := insertBy t.outranks id t.ac.waitList
          shedNote := if noted then t.ac.shedNote ++ [id] else t.ac.shedNote } }) := by
  have hp := State.update_eq_put (s := s.setSum (s.ac.committedSum - r.cost)) hs h (shedRecord s.si.markerCount)
  simp only [State.shedTerminal, State.withRecord_of_record? h, State.setSum_si]
  rw [hp]
  cases noted <;> rfl

theorem State.engineOnly_shedTerminal (s : State) (noted : Bool) (id : Nat) : s.EngineOnly (s.shedTerminal noted id) := by
  rcases h : s.record? id with _ | r
  · rw [State.shedTerminal, State.withRecord_vacant h]; exact .rfl' s
  · simp only [State.shedTerminal, State.withRecord_of_record? h]
    have base := (s.engineOnly_setSum (s.ac.committedSum - r.cost)).trans
      ((State.engineOnly_update _ id (shedRecord s.si.markerCount)).trans
        ((State.engineOnly_notify _ .terminalShed (some id) [(r.cost : Int)]).trans (State.engineOnly_joinWaitList _ id)))
    split
    · exact base.trans (State.engineOnly_noteShed _ _)
    · exact base

theorem State.engineOnly_shedWhileOver (noted : Bool) (n : Nat) (s : State) :
    s.EngineOnly (State.shedWhileOver noted n s) := by
  induction n generalizing s with
  | zero => exact .rfl' s
  | succ n ih =>
    simp only [State.shedWhileOver]
    split
    · exact .rfl' s
    · split
      · exact .rfl' s
      · exact (s.engineOnly_shedTerminal noted _).trans (ih _)

theorem State.engineOnly_shedCheck (s : State) (noted : Bool) : s.EngineOnly (s.shedCheck noted) :=
  State.engineOnly_shedWhileOver noted _ s

/-- A shed check on a part within its budget does nothing (R126). -/
theorem State.shedCheck_within {s : State} (h : s.ac.committedSum ≤ s.ac.bEff) (noted : Bool) : s.shedCheck noted = s := by
  simp only [State.shedCheck]
  cases s.tt.records.length <;> simp [State.shedWhileOver, h]

/-! ## The loss procedure (R59) -/

theorem State.engineOnly_lose (s : State) (reason : LossReason) (id : Nat) : s.EngineOnly (s.lose reason id) := by
  rcases h : s.record? id with _ | r
  · rw [State.lose, State.withRecord_vacant h]; exact .rfl' s
  · simp only [State.lose, State.withRecord_of_record? h]
    have h₁ : s.EngineOnly (if r.state.committed = true then s.setSum (s.ac.committedSum - r.cost) else s) := by
      split
      · exact s.engineOnly_setSum _
      · exact .rfl' s
    generalize (if r.state.committed = true then s.setSum (s.ac.committedSum - r.cost) else s) = s₁ at h₁ ⊢
    have h₂ : s₁.EngineOnly (if r.state.waiting = true then s₁.leaveWaitList id else s₁) := by
      split
      · exact s₁.engineOnly_leaveWaitList _
      · exact .rfl' s₁
    generalize (if r.state.waiting = true then s₁.leaveWaitList id else s₁) = s₂ at h₂ ⊢
    refine h₁.trans (h₂.trans ?_)
    split
    · exact (s₂.engineOnly_update _ _).trans ((State.engineOnly_notify _ _ _ _).trans (State.engineOnly_notify _ _ _ _))
    · exact (s₂.engineOnly_update _ _).trans (State.engineOnly_notify _ _ _ _)

/-! ## Profile changes (R54, R55) -/

theorem State.engineOnly_changeProfile (s : State) (id p : Nat) : s.EngineOnly (s.changeProfile id p) := by
  rcases h : s.record? id with _ | r
  · rw [State.changeProfile, State.withRecord_vacant h]; exact .rfl' s
  · simp only [State.changeProfile, State.withRecord_of_record? h]
    split
    · exact .rfl' s
    · have base (sum : Nat) (values : List Int) : s.EngineOnly
          (((s.update id (reprofiled s.lm.profiles p)).setSum sum).notify .profileChanged (some id) values) :=
        (s.engineOnly_update _ _).trans ((State.engineOnly_setSum _ _).trans (State.engineOnly_notify _ _ _ _))
      split
      · exact (base _ _).trans (State.engineOnly_shedCheck _ _)
      · exact base _ _

/-! ## Ranging (R94) -/

theorem State.engineOnly_attempt (s : State) (id : Nat) (message : Option Message) : s.EngineOnly (s.attempt id message) := by
  rcases h : s.record? id with _ | r
  · rw [State.attempt, State.withRecord_vacant h]; exact .rfl' s
  · simp only [State.attempt, State.withRecord_of_record? h]
    split
    · exact s.engineOnly_update _ _
    · exact s.engineOnly_lose _ _

theorem State.engineOnly_ranged (s : State) (id : Nat) : s.EngineOnly (s.ranged id) := by
  rcases h : s.record? id with _ | r
  · rw [State.ranged, State.withRecord_vacant h]; exact .rfl' s
  · simp only [State.ranged, State.withRecord_of_record? h]
    refine (s.engineOnly_update id (rangedRecord s.lm.profiles)).trans ?_
    split
    · exact (State.engineOnly_update _ _ _).trans (State.engineOnly_notify _ _ _ _)
    · exact (State.engineOnly_update _ _ _).trans (State.engineOnly_joinWaitList _ _)

theorem State.engineOnly_measure (s : State) (id : Nat) (m : Measurement) : s.EngineOnly (s.measure id m) := by
  simp only [State.measure]
  split
  · refine (s.engineOnly_update id (measuredRecord s.params.snrShift m)).trans ?_
    split
    · exact State.engineOnly_ranged _ _
    · exact State.engineOnly_attempt _ _ _
  · exact s.engineOnly_attempt _ _

theorem State.engineOnly_firstMeasurement (s : State) (id : Nat) (m : Measurement) :
    s.EngineOnly (s.firstMeasurement id m) := (s.engineOnly_update _ _).trans (State.engineOnly_measure _ _ _)

theorem State.engineOnly_contentionListed (s : State) (id : Nat) (m : Measurement) :
    s.EngineOnly (s.contentionListed id m) := by
  rcases h : s.record? id with _ | r
  · rw [State.contentionListed, State.withRecord_vacant h]; exact .rfl' s
  · simp only [State.contentionListed, State.withRecord_of_record? h]
    cases r.state
    case held => exact .rfl' s
    case lost => exact (s.engineOnly_update _ _).trans (State.engineOnly_firstMeasurement _ _ _)
    case polling => exact (s.engineOnly_update _ _).trans (State.engineOnly_firstMeasurement _ _ _)
    case ranging => exact (s.engineOnly_update _ _).trans (State.engineOnly_measure _ _ _)
    all_goals exact (s.engineOnly_lose _ _).trans (State.engineOnly_firstMeasurement _ _ _)

/-! ## The reports LM counts (R43, R44) -/

theorem State.engineOnly_restore (s : State) (id : Nat) : s.EngineOnly (s.restore id) := by
  rcases h : s.record? id with _ | r
  · rw [State.restore, State.withRecord_vacant h]; exact .rfl' s
  · simp only [State.restore, State.withRecord_of_record? h]
    exact (s.engineOnly_update _ _).trans (State.engineOnly_notify _ _ _ _)

theorem State.engineOnly_confirmIfWaiting (s : State) (id : Nat) : s.EngineOnly (s.confirmIfWaiting id) := by
  rcases h : s.record? id with _ | r
  · rw [State.confirmIfWaiting, State.withRecord_vacant h]; exact .rfl' s
  · simp only [State.confirmIfWaiting, State.withRecord_of_record? h]
    split
    · exact (s.engineOnly_update _ _).trans (State.engineOnly_restore _ _)
    · exact .rfl' s

theorem State.engineOnly_countFailure (s : State) (id : Nat) (o : BurstOutcome) : s.EngineOnly (s.countFailure id o) := by
  rcases h : s.record? id with _ | r
  · rw [State.countFailure, State.withRecord_vacant h]; exact .rfl' s
  · simp only [State.countFailure, State.withRecord_of_record? h]
    split
    · exact s.engineOnly_lose _ _
    · split
      · exact (s.engineOnly_update _ _).trans (State.engineOnly_notify _ _ _ _)
      · exact s.engineOnly_update _ _

theorem State.engineOnly_enterFading (s : State) (id : Nat) : s.EngineOnly (s.enterFading id) := by
  rcases h : s.record? id with _ | r
  · rw [State.enterFading, State.withRecord_vacant h]; exact .rfl' s
  · simp only [State.enterFading, State.withRecord_of_record? h]
    have base (values : List Int) : s.EngineOnly
        ((s.update id fun r => { r with state := .fading }).notify .fadingEntered (some id) values) :=
      (s.engineOnly_update _ _).trans (State.engineOnly_notify _ _ _ _)
    split
    · exact (base _).trans (State.engineOnly_changeProfile _ _ _)
    · exact base _

theorem State.engineOnly_failedReport (s : State) (id : Nat) (o : BurstOutcome) : s.EngineOnly (s.failedReport id o) := by
  simp only [State.failedReport, State.withRecord]
  refine (s.engineOnly_countFailure id o).trans ?_
  split
  · split
    · exact State.engineOnly_enterFading _ _
    · exact .rfl' _
  · exact .rfl' _

theorem State.engineOnly_goodReport (s : State) (id : Nat) : s.EngineOnly (s.goodReport id) := by
  rcases h : s.record? id with _ | r
  · rw [State.goodReport, State.withRecord_vacant h]; exact .rfl' s
  · simp only [State.goodReport, State.withRecord_of_record? h]
    split
    · exact .rfl' s
    · split
      · exact (s.engineOnly_update _ _).trans ((State.engineOnly_update _ _ _).trans (State.engineOnly_notify _ _ _ _))
      · exact s.engineOnly_update _ _

theorem State.engineOnly_selectCommitted (s : State) (id : Nat) : s.EngineOnly (s.selectCommitted id) := by
  rcases h : s.record? id with _ | r
  · rw [State.selectCommitted, State.withRecord_vacant h]; exact .rfl' s
  · simp only [State.selectCommitted, State.withRecord_of_record? h]
    exact s.engineOnly_changeProfile _ _

theorem State.engineOnly_grantReport (s : State) (id : Nat) (o : BurstOutcome) (snr : Int) :
    s.EngineOnly (s.grantReport id o snr) := by
  rcases h : s.record? id with _ | r
  · unfold State.grantReport; rw [State.withRecord_vacant h]; exact .rfl' s
  · simp only [State.grantReport, State.withRecord_of_record? h]
    split
    · split
      · exact (s.engineOnly_goodReport id).trans ((State.engineOnly_confirmIfWaiting _ _).trans
          ((State.engineOnly_update _ _ _).trans (State.engineOnly_selectCommitted _ _)))
      · exact s.engineOnly_failedReport _ _
    · exact .rfl' s

theorem State.engineOnly_countKeepalive (select : Bool) (s : State) (id : Nat) (o : BurstOutcome) (snr : Int) :
    s.EngineOnly (State.countKeepalive select s id o snr) := by
  simp only [State.countKeepalive]
  split
  · exact (s.engineOnly_update _ _).trans ((State.engineOnly_update _ _ _).trans (State.engineOnly_update _ _ _))
  · refine (s.engineOnly_countFailure id o).trans ?_
    split
    · exact State.engineOnly_update _ _ _
    · exact .rfl' _

/-! ## Judging polls (R83, R87) -/

theorem State.engineOnly_judgePoll (select : Bool) (s : State) (id : Nat) (m : Measurement) :
    s.EngineOnly (State.judgePoll select s id m) := by
  simp only [State.judgePoll]
  split
  · simp only [State.judgePolling]
    split
    · exact (s.engineOnly_update _ _).trans (State.engineOnly_firstMeasurement _ _ _)
    · exact s.engineOnly_update _ _
    · exact s.engineOnly_update _ _
  · exact s.engineOnly_measure _ _
  · exact (s.engineOnly_update _ _).trans (State.engineOnly_countKeepalive _ _ _ _ _)
  · exact .rfl' s

theorem State.engineOnly_pollReport (select : Bool) (s : State) (id : Nat) (frame : FrameNumber) (m : Measurement) :
    s.EngineOnly (State.pollReport select s id frame m) := by
  rcases h : s.record? id with _ | r
  · rw [State.pollReport, State.withRecord_vacant h]; exact .rfl' s
  · simp only [State.pollReport, State.withRecord_of_record? h]
    split
    · exact (s.engineOnly_update _ _).trans (State.engineOnly_judgePoll _ _ _ _)
    · exact .rfl' s

theorem State.engineOnly_endPoll (select : Bool) (n : FrameNumber) (s : State) (id : Nat) :
    s.EngineOnly (State.endPoll select n s id) := by
  rcases h : s.record? id with _ | r
  · rw [State.endPoll, State.withRecord_vacant h]; exact .rfl' s
  · simp only [State.endPoll, State.withRecord_of_record? h]
    split
    · exact .rfl' s
    · split
      · exact (s.engineOnly_update _ _).trans (State.engineOnly_judgePoll _ _ _ _)
      · exact .rfl' s

/-- An operation repeated over a list reaches no more than each of its runs does. -/
theorem State.engineOnly_foldl {α : Type} {op : State → α → State} (h : ∀ s a, State.EngineOnly s (op s a)) (l : List α)
    (s : State) : s.EngineOnly (l.foldl op s) := by
  induction l generalizing s with
  | nil => exact .rfl' s
  | cons a l ih => exact (h s a).trans (ih _)

theorem State.engineOnly_endFrame (select : Bool) (s : State) (n : FrameNumber) :
    s.EngineOnly (State.endFrame select s n) := State.engineOnly_foldl (State.engineOnly_endPoll select n) _ s

/-! ## The marker in OT and AC (R64, R129) -/

theorem State.engineOnly_resolveCancel (s : State) (id : Nat) : s.EngineOnly (s.resolveCancel id) := by
  rcases h : s.record? id with _ | r
  · rw [State.resolveCancel, State.withRecord_vacant h]; exact .rfl' s
  · simp only [State.resolveCancel, State.withRecord_of_record? h]
    split
    · refine State.EngineOnly.trans ?_ (State.engineOnly_notify _ _ _ _)
      split
      · exact (s.engineOnly_update _ _).trans ((State.engineOnly_lose _ _ _).trans (State.engineOnly_noteLost _ _))
      · exact s.engineOnly_update _ _
    · exact .rfl' s

theorem State.engineOnly_confirmVisit (s : State) (id : Nat) : s.EngineOnly (s.confirmVisit id) := by
  rcases h : s.record? id with _ | r
  · rw [State.confirmVisit, State.withRecord_vacant h]; exact .rfl' s
  · simp only [State.confirmVisit, State.withRecord_of_record? h]
    split
    · exact .rfl' s
    · split
      · simp only [State.expireConfirm, State.withRecord_of_record? h]
        split
        · exact s.engineOnly_update _ _
        · exact s.engineOnly_lose _ _
      · exact s.engineOnly_update _ _

theorem State.engineOnly_budgetStage (s : State) : s.EngineOnly s.budgetStage := by
  have h₁ : s.EngineOnly s.applyStaged := by
    simp only [State.applyStaged]
    split
    · exact .rfl' s
    · constructor <;> simp [State.ids]
  have h₂ (t : State) : t.EngineOnly t.countStorm := by
    simp only [State.countStorm]
    split
    · exact .rfl' t
    · split
      · exact State.EngineOnly.trans (by constructor <;> simp [State.ids]) (State.engineOnly_notify _ _ _ _)
      · constructor <;> simp [State.ids]
  have h₃ (t : State) : t.EngineOnly t.computeRaw.holdLevel := by
    constructor <;> simp [State.ids, State.holdLevel]
  have h₄ (t : State) : t.EngineOnly t.announceBudget := by
    have hc : t.EngineOnly t.computeBudget := by constructor <;> simp [State.ids]
    simp only [State.announceBudget]
    split
    · exact hc
    · exact hc.trans (State.engineOnly_notify _ _ _ _)
  exact h₁.trans ((h₂ _).trans ((h₃ _).trans (h₄ _)))

theorem State.engineOnly_admitTerminal (s : State) (id cost : Nat) : s.EngineOnly (s.admitTerminal id cost) := by
  rcases h : s.record? id with _ | r
  · rw [State.admitTerminal, State.withRecord_vacant h]; exact .rfl' s
  · simp only [State.admitTerminal, State.withRecord_of_record? h]
    exact (s.engineOnly_leaveWaitList _).trans ((State.engineOnly_update _ _ _).trans
      ((State.engineOnly_setSum _ _).trans (State.engineOnly_notify _ _ _ _)))

theorem State.engineOnly_makeRoom (headClass cost n : Nat) (s : State) :
    s.EngineOnly (State.makeRoom headClass cost n s) := by
  induction n generalizing s with
  | zero => exact .rfl' s
  | succ n ih =>
    simp only [State.makeRoom]
    split
    · exact .rfl' s
    · split
      · exact .rfl' s
      · exact (s.engineOnly_shedTerminal true _).trans (ih _)

theorem State.engineOnly_admissionPass (n : Nat) (s : State) : s.EngineOnly (State.admissionPass n s) := by
  induction n generalizing s with
  | zero => exact .rfl' s
  | succ n ih =>
    simp only [State.admissionPass]
    split
    · exact .rfl' s
    · split
      · exact .rfl' s
      · split
        · exact .rfl' s
        · split
          · exact (s.engineOnly_admitTerminal _ _).trans (ih _)
          · split
            · exact (State.engineOnly_makeRoom _ _ _ s).trans ((State.engineOnly_admitTerminal _ _ _).trans (ih _))
            · exact .rfl' s

theorem State.engineOnly_runStage (rank : Nat → Nat) (s : State) (stage : MarkerStage) :
    s.EngineOnly (runStage rank s stage) := by
  cases stage
  · exact State.engineOnly_foldl State.engineOnly_resolveCancel _ s
  · simp only [runStage, State.holdOffStage]; exact s.engineOnly_updateAll _
  · simp only [runStage, State.probationStage]; exact s.engineOnly_updateAll _
  · exact State.engineOnly_foldl State.engineOnly_confirmVisit _ s
  · exact s.engineOnly_budgetStage
  · exact s.engineOnly_shedCheck true
  · exact State.engineOnly_admissionPass _ s

/-- OT's and AC's reaction to a marker, in any interleaving. -/
theorem State.engineOnly_react (s : State) (picks : List Bool) (rank : Nat → Nat) : s.EngineOnly (s.react picks rank) :=
  (State.engineOnly_foldl (State.engineOnly_runStage rank) _ s).trans (by constructor <;> rfl)

/-- An interleaving of OT's and AC's stages keeps each sequence in its order, and holds every stage once. -/
theorem interleave_perm {α : Type} (picks : List Bool) (xs ys : List α) : (interleave picks xs ys).Perm (xs ++ ys) := by
  induction picks generalizing xs ys with
  | nil => exact .refl _
  | cons b picks ih =>
    cases b <;> cases xs <;> cases ys <;> simp only [interleave] <;> try exact .refl _
    · exact ((ih _ _).cons _).trans List.perm_middle.symm
    · exact ((ih _ _).cons _).trans List.perm_middle.symm
    all_goals exact (ih _ _).cons _

end Sys2Proof.Machine
end

