-- ==== Sys2Proof/Laws/PerInstr.lean ====
section
/-! SUPPORT. What holds of every command as syntax: it stands on at most one path, and a well-formed one that is a command's
cell carries lists of the lengths its cell requires (R1, R163). -/

namespace Sys2Proof.Laws.Fields

/-- The statement about one command. -/
def Statement (i : Instr) : Prop :=
  (i.dsItem? = none ∨ i.usItem? = none) ∧
    ∀ tag c, i.wf = true → i.dsItem? = some (.command tag c) → c.lengthOk = true


theorem powerOn : Statement .powerOn := ⟨.inl rfl, fun _ _ _ e => by cases e⟩
theorem itemCut (path : Path) (bytes : List Byte) : Statement (.itemCut path bytes) := by
  cases path <;> exact ⟨by first | exact .inl rfl | exact .inr rfl, fun _ _ _ h => by simp [Instr.dsItem?] at h⟩
theorem unroutedItem (path : Path) (bytes : List Byte) : Statement (.unroutedItem path bytes) := by
  cases path <;> exact ⟨by first | exact .inl rfl | exact .inr rfl, fun _ _ _ h => by simp [Instr.dsItem?] at h⟩
theorem frameMarker (frame : FrameNumber) (tail : List Byte) :
    Statement (.frameMarker frame tail) := ⟨.inr rfl, fun _ _ _ e => by cases e⟩
theorem markerWatchdogExpiry : Statement .markerWatchdogExpiry := ⟨.inl rfl, fun _ _ _ e => by cases e⟩
theorem map (frame : FrameNumber) (count : Byte) (body : List Byte) :
    Statement (.map frame count body) := ⟨.inr rfl, fun _ _ _ e => by cases e⟩
theorem controlSection (offered : Byte) (messages : List Byte) :
    Statement (.controlSection offered messages) := ⟨.inr rfl, fun _ _ _ e => by cases e⟩
theorem mgmtCellHeader : Statement .mgmtCellHeader := ⟨.inr rfl, fun _ _ _ e => by cases e⟩
theorem managementCell (payload : List Byte) :
    Statement (.managementCell payload) := ⟨.inr rfl, fun _ _ _ e => by cases e⟩
theorem setModeConfig (tag : Byte) : Statement (.setModeConfig tag) := ⟨.inr rfl, fun _ _ _ e => by cases e; rfl⟩
theorem setModeRun (tag : Byte) : Statement (.setModeRun tag) := ⟨.inr rfl, fun _ _ _ e => by cases e; rfl⟩
theorem runEntryOperation (last : Nat) : Statement (.runEntryOperation last) := ⟨.inl rfl, fun _ _ _ e => by cases e⟩
theorem loadTerminals (tag : Byte) (entries : List ProvEntry) :
    Statement (.loadTerminals tag entries) := ⟨.inr rfl, fun _ _ h e => by cases e; exact h⟩
theorem provisioningEntry : Statement .provisioningEntry := ⟨.inl rfl, fun _ _ _ e => by cases e⟩
theorem unload (tag : Byte) (id : Byte) : Statement (.unload tag id) := ⟨.inr rfl, fun _ _ _ e => by cases e; rfl⟩
theorem readTerminal (tag : Byte) (id : Byte) :
    Statement (.readTerminal tag id) := ⟨.inr rfl, fun _ _ _ e => by cases e; rfl⟩
theorem hold (tag : Byte) (id : Byte) : Statement (.hold tag id) := ⟨.inr rfl, fun _ _ _ e => by cases e; rfl⟩
theorem release (tag : Byte) (id : Byte) : Statement (.release tag id) := ⟨.inr rfl, fun _ _ _ e => by cases e; rfl⟩
theorem forceLoss (tag : Byte) (id : Byte) :
    Statement (.forceLoss tag id) := ⟨.inr rfl, fun _ _ _ e => by cases e; rfl⟩
theorem cancelReentry (tag : Byte) (id : Byte) :
    Statement (.cancelReentry tag id) := ⟨.inr rfl, fun _ _ _ e => by cases e; rfl⟩
theorem loadProfiles (tag : Byte) (table : List ProfileWire) :
    Statement (.loadProfiles tag table) := ⟨.inr rfl, fun _ _ h e => by cases e; exact h⟩
theorem loadProfilesReclamp : Statement .loadProfilesReclamp := ⟨.inl rfl, fun _ _ _ e => by cases e⟩
theorem loadBudget (tag : Byte) (banks : List Half) :
    Statement (.loadBudget tag banks) := ⟨.inr rfl, fun _ _ h e => by cases e; exact h⟩
theorem loadLevelTable (tag : Byte) (thresholds : List Half) (levelHold : Byte) :
    Statement (.loadLevelTable tag thresholds levelHold) := ⟨.inr rfl, fun _ _ h e => by cases e; exact h⟩
theorem loadFilters (tag : Byte) (acceptA acceptB reject : FilterWire) :
    Statement (.loadFilters tag acceptA acceptB reject) := ⟨.inr rfl, fun _ _ _ e => by cases e; rfl⟩
theorem loadSectorParameters (tag : Byte) (values : List Half) :
    Statement (.loadSectorParameters tag values) := ⟨.inr rfl, fun _ _ h e => by cases e; exact h⟩
theorem storm (tag : Byte) (level : Byte) : Statement (.storm tag level) := ⟨.inr rfl, fun _ _ _ e => by cases e; rfl⟩
theorem unlistedRead (tag : Byte) : Statement (.unlistedRead tag) := ⟨.inr rfl, fun _ _ _ e => by cases e; rfl⟩
theorem unlistedRelease (tag : Byte) : Statement (.unlistedRelease tag) := ⟨.inr rfl, fun _ _ _ e => by cases e; rfl⟩
theorem unlistedClearOverrun (tag : Byte) :
    Statement (.unlistedClearOverrun tag) := ⟨.inr rfl, fun _ _ _ e => by cases e; rfl⟩
theorem readSector (tag : Byte) (acknowledge : Byte) :
    Statement (.readSector tag acknowledge) := ⟨.inr rfl, fun _ _ _ e => by cases e; rfl⟩
theorem setNoticeMask (tag : Byte) (enables : List Byte) :
    Statement (.setNoticeMask tag enables) := ⟨.inr rfl, fun _ _ h e => by cases e; exact h⟩
theorem sectorReset (tag : Byte) (through : Nat) :
    Statement (.sectorReset tag through) := ⟨.inr rfl, fun _ _ _ e => by cases e; rfl⟩
theorem burstReport (kind : GrantKind) (b : Burst) :
    Statement (.burstReport kind b) := ⟨.inl rfl, fun _ _ _ e => by cases e⟩
theorem pollReport (b : Burst) : Statement (.pollReport b) := ⟨.inl rfl, fun _ _ _ e => by cases e⟩
theorem contentionReportListed (b : Burst) :
    Statement (.contentionReportListed b) := ⟨.inl rfl, fun _ _ _ e => by cases e⟩
theorem contentionReportUnlisted (b : Burst) :
    Statement (.contentionReportUnlisted b) := ⟨.inl rfl, fun _ _ _ e => by cases e⟩
theorem endOfFrameReport (frame : FrameNumber) (tail : List Byte) :
    Statement (.endOfFrameReport frame tail) := ⟨.inl rfl, fun _ _ _ e => by cases e⟩
theorem noticeEmission : Statement .noticeEmission := ⟨.inl rfl, fun _ _ _ e => by cases e⟩
theorem usOutBoundary : Statement .usOutBoundary := ⟨.inl rfl, fun _ _ _ e => by cases e⟩
theorem holdOffExpiry (id : Byte) : Statement (.holdOffExpiry id) := ⟨.inl rfl, fun _ _ _ e => by cases e⟩
theorem probationExpiry (id : Byte) : Statement (.probationExpiry id) := ⟨.inl rfl, fun _ _ _ e => by cases e⟩
theorem confirmTimerExpiry (id : Byte) : Statement (.confirmTimerExpiry id) := ⟨.inl rfl, fun _ _ _ e => by cases e⟩
theorem stormExpiry : Statement .stormExpiry := ⟨.inl rfl, fun _ _ _ e => by cases e⟩
theorem levelHoldExpiry : Statement .levelHoldExpiry := ⟨.inl rfl, fun _ _ _ e => by cases e⟩
theorem resetNFall : Statement .resetNFall := ⟨.inl rfl, fun _ _ _ e => by cases e⟩

end Sys2Proof.Laws.Fields
end

