-- ==== Sys2Proof/Laws/Streams.lean ====
section
/-! SUPPORT. The arrival of items on ready ports: what a receipt comes to when nothing holds the port, and a cell removed and
answered. -/

namespace Sys2Proof.Machine

theorem State.receiveDs_of_ready {s : State} (h : s.dsReady) (i : DsItem) : s.receiveDs i = s.routeDs i := by
  simp [State.receiveDs, State.whenUp, State.arriveDs, h.1, h.2.1, h.2.2]

theorem State.receiveUs_of_ready {s : State} (h : s.usReady) (i : UsItem) :
    s.receiveUs i = State.routeUs Config.selectAfterFailedKeepalive s i := by
  simp [State.receiveUs, State.whenUp, State.arriveUs, State.settleEmission, h.1, h.2.1, h.2.2]

/-- The emission an end-of-frame report owes: nothing where none is owed, else at most that report's E of notices (R179). -/
theorem State.settleEmission_of_none {s : State} (h : s.paths.emissionDue = none) : s.settleEmission = s := by
  simp [State.settleEmission, h]

theorem State.settleEmission_of_some {s : State} {e : Nat} (h : s.paths.emissionDue = some e) :
    s.settleEmission = State.emitNotices e { s with paths := { s.paths with emissionDue := none } } := by
  simp [State.settleEmission, h]

/-- What an emission leaves alone: all but the two queues (R179). -/
theorem State.emitNotices_frame (e : Nat) (s : State) :
    State.emitNotices e s = { s with
      insertion := (State.emitNotices e s).insertion
      mu := { s.mu with notices := s.mu.notices.drop (s.emissionCount e) } } := rfl

/-- While RESET_N is low nothing is received (R18, log 15). -/
theorem State.receiveDs_resetLow {s : State} (h : s.paths.resetLow = true) (i : DsItem) : s.receiveDs i = s := by
  simp [State.receiveDs, State.whenUp, h]

theorem State.receiveUs_resetLow {s : State} (h : s.paths.resetLow = true) (i : UsItem) : s.receiveUs i = s := by
  simp [State.receiveUs, State.whenUp, h]

/-- A header that is not in passage cuts nothing. -/
theorem State.cutHeader_of_none {s : State} (h : s.paths.header = .none) : s.cutHeader = s := by
  simp [State.cutHeader, h]

/-- A cell whose place is there is handed on with DS-in free and its place reserved (R7). -/
theorem State.takeReserved_of_cellReady {s : State} (h : s.cellReady) (i : DsItem) (handle : State → State) :
    s.takeReserved i handle = handle (s.cellRemoved 0) := by
  rcases h.2.1 with hr | ⟨hn, hp⟩
  · simp [State.takeReserved, State.setHeader, State.cellRemoved, hr]
  · simp [State.takeReserved, State.takeHeader, State.setHeader, State.reservePlace, State.cellRemoved, hn, hp]

theorem State.header_of_cellReady {s : State} (h : s.cellReady) : s.paths.header ≠ .waiting := by
  rcases h.2.1 with hr | ⟨hn, _⟩ <;> simp [*]

theorem State.receiveDs_cell {s : State} (h : s.cellReady) (payload : List Byte) :
    s.receiveDs (.cell payload) = (s.cellRemoved 0).takeCell payload := by
  simp [State.receiveDs, State.whenUp, State.arriveDs, State.routeDs, h.1, h.2.2, State.header_of_cellReady h,
    State.takeReserved_of_cellReady h]

theorem State.receiveDs_command {s : State} (h : s.cellReady) (tag : Byte) (c : Command) :
    s.receiveDs (.command tag c) = (s.cellRemoved 0).takeCommand tag c := by
  simp [State.receiveDs, State.whenUp, State.arriveDs, State.routeDs, h.1, h.2.2, State.header_of_cellReady h,
    State.takeReserved_of_cellReady h]

/-- A command of the right length, with none in flight, is carried out (R163). -/
theorem State.takeCommand_of_idle {s : State} (h : s.mu.inFlight = none) (tag : Byte) {c : Command}
    (hl : c.lengthOk = true) : s.takeCommand tag c = s.carryOut tag c := by
  simp [State.takeCommand, State.busyFor, h, hl]

theorem State.receiveDs_commandReady {s : State} (h : s.commandReady) (tag : Byte) {c : Command}
    (hl : c.lengthOk = true) : s.receiveDs (.command tag c) = (s.cellRemoved 0).carryOut tag c := by
  rw [State.receiveDs_command h.1]
  exact State.takeCommand_of_idle (s := s.cellRemoved 0) h.2 tag hl

/-- The reply to a cell that has been removed: the state `answered` describes (R7, R164). -/
theorem State.reply_cellRemoved (s : State) (tag code : Byte) (r : Reply) :
    (s.cellRemoved 0).reply tag code r = s.answered tag code r := by
  simp [State.reply, State.placeResponse, State.cellRemoved, State.answered]

/-- The end of the command in flight: the state `completed` describes (R165). -/
theorem State.complete_eq (s : State) (tag code : Byte) (r : Reply) : s.complete tag code r = s.completed tag code r := rfl

/-! ## Offering an item on DS-out (R1) -/

/-- An offered item goes into the port's record, or waits: nothing else changes. -/
theorem State.offerDs_eq (s : State) (bytes : List Byte) :
    s.offerDs bytes = { s with paths :=
      if s.paths.dsOutReady then { s.paths with dsOut := s.paths.dsOut ++ [bytes] }
      else { s.paths with dsItem := some bytes } } := by
  simp only [State.offerDs]
  split <;> simp_all [State.sendDs, State.waitDs]

section
variable (s : State) (bytes : List Byte)

@[simp] theorem State.offerDs_pending : (s.offerDs bytes).pending = s.pending := by rw [State.offerDs_eq]
@[simp] theorem State.offerDs_insertion : (s.offerDs bytes).insertion = s.insertion := by rw [State.offerDs_eq]
@[simp] theorem State.offerDs_si : (s.offerDs bytes).si = s.si := by rw [State.offerDs_eq]
@[simp] theorem State.offerDs_tt : (s.offerDs bytes).tt = s.tt := by rw [State.offerDs_eq]
@[simp] theorem State.offerDs_lm : (s.offerDs bytes).lm = s.lm := by rw [State.offerDs_eq]
@[simp] theorem State.offerDs_ot : (s.offerDs bytes).ot = s.ot := by rw [State.offerDs_eq]
@[simp] theorem State.offerDs_ac : (s.offerDs bytes).ac = s.ac := by rw [State.offerDs_eq]
@[simp] theorem State.offerDs_mp : (s.offerDs bytes).mp = s.mp := by rw [State.offerDs_eq]
@[simp] theorem State.offerDs_uq : (s.offerDs bytes).uq = s.uq := by rw [State.offerDs_eq]
@[simp] theorem State.offerDs_mu : (s.offerDs bytes).mu = s.mu := by rw [State.offerDs_eq]
@[simp] theorem State.offerDs_params : (s.offerDs bytes).params = s.params := by rw [State.offerDs_eq]
@[simp] theorem State.offerDs_raceTick : (s.offerDs bytes).raceTick = s.raceTick := by rw [State.offerDs_eq]
@[simp] theorem State.record?_offerDs (id : Nat) : (s.offerDs bytes).record? id = s.record? id :=
  State.record?_congr (by simp) id

end

/-- While no item waits, the level of DS-out's ready input changes that pin alone (R1, log 6). -/
theorem State.driveDsOut_of_none {s : State} (h : s.paths.dsItem = none) (level : Bool) :
    s.driveDsOut level = s.setDsOutReady level := by
  cases level <;> simp [State.driveDsOut, h]

/-- A level that stays low leaves the item waiting (R1, log 6). -/
theorem State.driveDsOut_low (s : State) : s.driveDsOut false = s.setDsOutReady false := rfl

section
variable (s : State) (n : Nat)

@[simp] theorem State.cellRemoved_pending : (s.cellRemoved n).pending = s.pending := rfl
@[simp] theorem State.cellRemoved_si : (s.cellRemoved n).si = s.si := rfl
@[simp] theorem State.cellRemoved_tt : (s.cellRemoved n).tt = s.tt := rfl
@[simp] theorem State.cellRemoved_lm : (s.cellRemoved n).lm = s.lm := rfl
@[simp] theorem State.cellRemoved_ot : (s.cellRemoved n).ot = s.ot := rfl
@[simp] theorem State.cellRemoved_ac : (s.cellRemoved n).ac = s.ac := rfl
@[simp] theorem State.cellRemoved_mp : (s.cellRemoved n).mp = s.mp := rfl
@[simp] theorem State.cellRemoved_uq : (s.cellRemoved n).uq = s.uq := rfl
@[simp] theorem State.cellRemoved_mu : (s.cellRemoved n).mu = s.mu := rfl
@[simp] theorem State.cellRemoved_params : (s.cellRemoved n).params = s.params := rfl
@[simp] theorem State.cellRemoved_raceTick : (s.cellRemoved n).raceTick = s.raceTick := rfl
@[simp] theorem State.record?_cellRemoved (id : Nat) : (s.cellRemoved n).record? id = s.record? id := rfl

end

end Sys2Proof.Machine
end

