-- ==== Sys2Proof/Laws/Wire.lean ====
section
/-! SUPPORT. The fields of the wire read back from their bytes. -/

namespace Sys2Proof

theorem half_halfBytes (w : Half) : half (w.extractLsb' 8 8) (w.extractLsb' 0 8) = w := by
  apply BitVec.eq_of_getLsbD_eq
  intro i hi
  interval_cases i <;> simp only [half, BitVec.getLsbD_append, BitVec.getLsbD_extractLsb'] <;> simp

theorem address_addressBytes (w : BitVec 48) :
    address (w.extractLsb' 40 8) (w.extractLsb' 32 8) (w.extractLsb' 24 8) (w.extractLsb' 16 8) (w.extractLsb' 8 8)
      (w.extractLsb' 0 8) = w := by
  apply BitVec.eq_of_getLsbD_eq
  intro i hi
  interval_cases i <;> simp only [address, BitVec.getLsbD_append, BitVec.getLsbD_extractLsb'] <;> simp

theorem halfBytes_length (w : Half) : (halfBytes w).length = 2 := rfl

theorem addressBytes_length (w : BitVec 48) : (addressBytes w).length = 6 := rfl

theorem itemBytes_length (kind : Byte) (body : List Byte) : (itemBytes kind body).length = 3 + body.length := by
  simp [itemBytes, halfBytes]; omega

/-- An item that fits its length field declares its own length (R1, 12.1). -/
theorem declaredLength_itemBytes (body : List Byte) (h : 3 + body.length ≤ 65535) :
    declaredLength ((BitVec.ofNat 16 (3 + body.length)).extractLsb' 8 8)
      ((BitVec.ofNat 16 (3 + body.length)).extractLsb' 0 8) = 3 + body.length := by
  rw [declaredLength, half_halfBytes, BitVec.toNat_ofNat, Nat.mod_eq_of_lt (by omega)]
  omega

end Sys2Proof
end

