-- ==== Sys2Proof/Tests/Slice0.lean ====
section
/-! SUPPORT. Tests on small states: each check of WellFormed refuses an ill-formed term; the manual's worked figures; and for
every statement with hypotheses a witness that meets them. Expected values come from the manual's tables and layouts. -/

namespace Sys2Proof.Tests

open Sys2Proof Sys2Proof.Machine

/-! ## Small states -/

/-- A HIGH record with L = 300 and ceiling 4, as terminal 17 of the worked figures of chapter 3. -/
def rec (st : TState) : Record :=
  { addr := 0xA1, cls := .high, load := 300, ceiling := 4, state := st, fade := 0, avg := none, profile := 0, holdOff := 0,
    backoff := 0, probation := 0, outageStart := none, cancelReq := false, misses := 0, nextEligible := 0,
    outstanding := none, keepaliveDue := 0, attempts := 0, holdReq := false, lastTiming := 0, lastPower := 0, cost := 0,
    confirmTimer := none, admitTries := 0, message := none, losses := 0, restorations := 0, sheds := 0, pollMisses := 0,
    lastReason := .none, lastOutage := 0 }

/-- The Profile Table of the worked figures of chapter 3. -/
def figures : List ProfileEntry :=
  [⟨true, 24, 12, 2⟩, ⟨true, 40, 24, 1⟩, ⟨true, 56, 36, 1⟩, ⟨true, 72, 48, 1⟩, ⟨true, 88, 60, 1⟩, disabledProfile,
   disabledProfile, disabledProfile]

/-- A part in a mode, with records at their addresses. -/
def part (m : Mode) (rs : List (Nat × Record)) : State :=
  { State.reset with
    si := { State.reset.si with mode := m, watchdog := if m = .run then some 3000 else none }
    tt := { records := rs, stationMap := rs.map fun e => (e.1, e.2.addr) }
    lm := { profiles := figures } }

/-- A part in RUN with one record, terminal 5, in a state. -/
def one (r : Record) : State := part .run [(5, r)]

/-- A part with a command in flight. -/
def busy (m : Mode) (c : InFlight) (rs : List (Nat × Record)) : State :=
  { part m rs with insertion := { cells := [], reserved := 1 }, mu := { State.reset.mu with inFlight := some c } }

/-- The state after a command. -/
def nextOf : Host.Outcome State Fault Refusal → State
  | .next t => t
  | .fault _ => State.reset
  | .refused _ => State.reset

/-- The kinds and values of the notices queued. -/
def told (s : State) : List (NoticeKind × Option Nat × List Int) := s.mu.notices.map fun n => (n.kind, n.id, n.values)

/-- A burst of an outcome with a sample, for a terminal and a frame. -/
def burst (id : Byte) (frame : FrameNumber) (o : BurstOutcome) (snr timing : Half) (power : Byte) (tail : List Byte := []) :
    Burst := { frame := frame, id := id, outcome := o, snr := snr, timing := timing, power := power, tail := tail }

/-! ## WellFormed: an ill-formed term for each check -/

theorem test_wf_whole_item_is_no_cut : (Instr.itemCut .downstream [0x04, 0x00, 0x03]).wf = false := by decide
theorem test_wf_empty_is_no_cut : (Instr.itemCut .upstream []).wf = false := by decide
theorem test_wf_accepts_cut : (Instr.itemCut .downstream [0x04, 0x00, 0x06, 0x01]).wf = true := by decide
theorem test_wf_marker_is_routed : (Instr.unroutedItem .downstream [0x01, 0x00, 0x05, 0x00, 0x09]).wf = false := by decide
theorem test_wf_short_marker_is_unrouted : (Instr.unroutedItem .downstream [0x01, 0x00, 0x04, 0x00]).wf = true := by decide
theorem test_wf_long_marker (l : List Byte) (h : 65531 ≤ l.length) : (Instr.frameMarker 0 l).wf = false := by
  simp [Instr.wf, fitsItem, DsItem.bytes, itemBytes, halfBytes, Config.maxItemLength]; omega
theorem test_wf_long_map (l : List Byte) (h : 65530 ≤ l.length) : (Instr.map 0 0 l).wf = false := by
  simp [Instr.wf, fitsItem, DsItem.bytes, itemBytes, halfBytes, Config.maxItemLength]; omega
theorem test_wf_long_section (l : List Byte) (h : 65532 ≤ l.length) : (Instr.controlSection 0 l).wf = false := by
  simp [Instr.wf, fitsItem, DsItem.bytes, itemBytes, halfBytes, Config.maxItemLength]; omega
theorem test_wf_long_cell (l : List Byte) (h : 65533 ≤ l.length) : (Instr.managementCell l).wf = false := by
  simp [Instr.wf, fitsItem, DsItem.bytes, itemBytes, halfBytes, Config.maxItemLength]; omega
theorem test_wf_run_entry_stage : (Instr.runEntryOperation 6).wf = false ∧ (Instr.runEntryOperation 0).wf = false := by decide
theorem test_wf_no_entries : (Instr.loadTerminals 1 []).wf = false := by decide
theorem test_wf_seven_profiles : (Instr.loadProfiles 1 (List.replicate 7 ⟨0, 0, 0, 0⟩)).wf = false := by decide
theorem test_wf_nine_banks : (Instr.loadBudget 1 (List.replicate 9 0)).wf = false := by decide
theorem test_wf_six_thresholds : (Instr.loadLevelTable 1 (List.replicate 6 0) 1).wf = false := by decide
theorem test_wf_parameters : (Instr.loadSectorParameters 1 (List.replicate 26 0)).wf = false := by decide
theorem test_wf_mask : (Instr.setNoticeMask 1 (List.replicate 17 1)).wf = false := by decide
theorem test_wf_reset_steps : (Instr.sectorReset 1 8).wf = false ∧ (Instr.sectorReset 1 0).wf = false := by decide
theorem test_wf_long_report (l : List Byte) (h : 65523 ≤ l.length) : (Instr.burstReport .data (burst 1 0 .good 0 0 0 l)).wf = false := by
  simp [Instr.wf, fitsItem, UsItem.bytes, burstBody, burst, itemBytes, halfBytes, Config.maxItemLength]; omega
theorem test_wf_long_poll (l : List Byte) (h : 65523 ≤ l.length) : (Instr.pollReport (burst 1 0 .good 0 0 0 l)).wf = false := by
  simp [Instr.wf, fitsItem, UsItem.bytes, burstBody, burst, itemBytes, halfBytes, Config.maxItemLength]; omega
theorem test_wf_listed_is_good :
    (Instr.contentionReportListed (burst 1 0 .missed 0 0 0 (List.replicate 6 0))).wf = false := by decide
theorem test_wf_no_room_for_address :
    (Instr.contentionReportUnlisted (burst 1 0 .good 0 0 0 (List.replicate 5 0))).wf = false := by decide
theorem test_wf_long_eof (l : List Byte) (h : 65531 ≤ l.length) : (Instr.endOfFrameReport 0 l).wf = false := by
  simp [Instr.wf, fitsItem, UsItem.bytes, itemBytes, halfBytes, Config.maxItemLength]; omega
theorem test_wf_long_contention (l : List Byte) (h : 65523 ≤ l.length) :
    (Instr.contentionReportListed (burst 1 0 .good 0 0 0 l)).wf = false ∧
      (Instr.contentionReportUnlisted (burst 1 0 .good 0 0 0 l)).wf = false := by
  simp [Instr.wf, fitsItem, UsItem.bytes, burstBody, burst, itemBytes, halfBytes, Config.maxItemLength]; omega
theorem test_wf_long_cut (p : Path) (l : List Byte) (h : 65536 ≤ l.length) :
    (Instr.itemCut p l).wf = false ∧ (Instr.unroutedItem p l).wf = false := by
  have h' : ¬ l.length ≤ 65535 := by omega
  simp [Instr.wf, fitsItem, Config.maxItemLength, h']
theorem test_wf_expiry_names_record :
    (Instr.holdOffExpiry 0).wf = false ∧ (Instr.probationExpiry 0).wf = false ∧ (Instr.confirmTimerExpiry 0).wf = false := by
  decide

/-! ## The wire, written out from chapter 12 -/

/-- 12.2: kind 01h, length 5, frame number 1234h. -/
theorem test_reads_marker : readDs [0x01, 0x00, 0x05, 0x12, 0x34] = .marker 0x1234 [] := by decide
/-- 12.2: kind 02h, length 12, frame 0102h, one entry. -/
theorem test_reads_map : readDs [0x02, 0x00, 0x0C, 0x01, 0x02, 0x01, 0x0C, 0x00, 0x04, 0x01, 0x00, 0x14] =
    .map 0x0102 1 [0x0C, 0x00, 0x04, 0x01, 0x00, 0x14] := by decide
/-- 12.2: start slot 16 in the upper 12 bits, length 20 in the lower 12. -/
theorem test_reads_entry :
    readMapEntries [0x0C, 0x00, 0x04, 0x01, 0x00, 0x14] = [⟨12, 0x00, 4, 16, 20⟩] := by decide
theorem test_reads_section : readDs [0x03, 0x00, 0x05, 0x06, 0xAA] = .control 6 [0xAA] := by decide
theorem test_reads_cell : readDs [0x04, 0x00, 0x06, 0x03, 0x28, 0x07] = .cell [0x03, 0x28, 0x07] := by decide
/-- 12.3: a POLL report, GOOD, SNR 60, timing 700, power -30. -/
theorem test_reads_poll_report :
    readUs [0x11, 0x00, 0x0D, 0x11, 0x3A, 0x08, 0x02, 0x00, 0x00, 0x3C, 0x02, 0xBC, 0xE2] =
      .poll (burst 8 0x113A .good 60 700 0xE2) := by decide
/-- 12.3: a CONTENTION report with its station address. -/
theorem test_reads_contention :
    readUs [0x11, 0x00, 0x13, 0x00, 0x01, 0x00, 0x03, 0x00, 0x00, 0x3C, 0x00, 0x00, 0x00, 1, 2, 3, 4, 5, 6] =
      .contention (burst 0 1 .good 60 0 0 [1, 2, 3, 4, 5, 6]) := by decide
theorem test_reads_eof : readUs [0x12, 0x00, 0x05, 0x03, 0x85] = .endOfFrame 901 [] := by decide
/-- 12.1: a burst kind that chapter 12 does not give leaves the item unrouted (R183). -/
theorem test_reads_unknown_kind :
    readUs [0x11, 0x00, 0x0D, 0, 0, 1, 0x04, 0, 0, 0, 0, 0, 0] =
      .raw [0x11, 0x00, 0x0D, 0, 0, 1, 0x04, 0, 0, 0, 0, 0, 0] := by decide
/-- 12.4: LOAD_LEVEL_TABLE, seven thresholds and the level hold. -/
theorem test_reads_level_table :
    readCommand 0x0B [0, 50, 0, 100, 0, 200, 1, 44, 1, 194, 2, 88, 3, 32, 4] =
      .command (.loadLevelTable [50, 100, 200, 300, 450, 600, 800] 4) := by decide
theorem test_reads_terminals :
    readCommand 0x02 [1, 9, 0, 0, 0, 0, 0, 0xA9, 2, 0x01, 0x2C, 4, 1] =
      .command (.loadTerminals [⟨9, 0xA9, 2, 300, 4, 1⟩]) := by decide

/-! ## The manual's worked figures -/

/-- Chapter 3, the averaged SNR: four samples from 1408 with shift 2. -/
theorem test_averages :
    [averaged 2 (some 1408) 60, averaged 2 (some 1296) 52, averaged 2 (some 1180) 49, averaged 2 (some 1081) 51] =
      [1296, 1180, 1081, 1014] := by decide

/-- Chapter 3, the selections of the same table; and R51 on P0 below its T, at v = 23. -/
theorem test_selections :
    [(4, 1296), (3, 1180), (3, 1081), (2, 1014), (2, 1300), (0, 383)].map (fun (p, avg) =>
      selected figures 8 { rec .inService with profile := p, avg := some avg }) = [3, 3, 2, 2, 3, 0] := by decide

/-- Chapter 3, the costs of terminal 17: 6, 8, 10 on P4, P3, P2, and 27 on P0 (R120). -/
theorem test_costs : [4, 3, 2, 0].map (airtimeCost figures 300) = [6, 8, 10, 27] := by decide

/-- Chapter 3, "a downgrade that sheds". -/
def sheds : State :=
  let served (cls : Cls) (cost : Nat) : Record := { rec .inService with cls := cls, cost := cost }
  let s := part .run [(2, served .critical 91), (17, { served .high 8 with profile := 3, avg := some 1180, fade := 1 }),
    (23, served .low 3), (40, served .low 5)]
  { s with ac := { s.ac with committedSum := 107, bEff := 108, effLevel := 3, heldLevel := 3 } }

theorem test_downgrade_sheds :
    let t := nextOf (exec (.burstReport .data (burst 17 1 .good 49 0 0)) sheds)
    t.ac.committedSum = 104 ∧ t.ac.waitList = [40] ∧ told t = [(.profileChanged, some 17, [3, 2, 10]),
      (.terminalShed, some 40, [5])] ∧ (t.record? 17).map (fun r => (r.fade, r.avg, r.cost)) = some (0, some 1081, 10) ∧
      (t.record? 40).map (·.message) = some (some .suspend) := by decide

/-- Chapter 4, hold-off figures: base 32 at b = 1 and 2, the clamp at base 255. -/
theorem test_hold_offs : [holdOffOf 32 1, holdOffOf 32 2, holdOffOf 255 6, holdOffOf 0 6] = [64, 128, 4095, 0] := by decide

/-- Chapter 4: a fade loss on probation 380 raises b from 2 to 3 and loads 256; the burst that passes 255 causes it. -/
theorem test_fade_loss_on_probation :
    let t := nextOf (exec (.burstReport .data (burst 5 1 .missed 0 0 0))
      (one { rec .fading with fade := 250, backoff := 2, probation := 380 }))
    told t = [(.terminalLost, some 5, [1, 8, 256])] ∧
      (t.record? 5).map (fun r => (r.state, r.backoff, r.holdOff, r.fade)) = some (.lost, 3, 256, 0) := by decide

/-- R39, R41: an IN_SERVICE counter that passes 127 enters FADING and pins the profile to the fade profile. -/
theorem test_fading_entry :
    let t := nextOf (exec (.burstReport .report (burst 5 1 .crcBad 0 0 0))
      { one { rec .inService with fade := 124, profile := 3, cost := 8 } with
        ac := { State.reset.ac with committedSum := 8, bEff := 100 } })
    told t = [(.fadingEntered, some 5, [128, 0]), (.profileChanged, some 5, [3, 0, 27])] ∧
      t.stateOf 5 = some .fading ∧ t.ac.committedSum = 27 := by decide

/-- Chapter 5, "one map edited": the records, with the parameters of the example. -/
def mapPart : State :=
  let s := part .run [(5, { rec .polling with cls := .critical, nextEligible := 5000 }), (8, rec .ranging),
    (12, rec .inService), (27, { rec .shed with cls := .low, keepaliveDue := 4990 }), (31, rec .lost),
    (44, { rec .polling with nextEligible := 4998, misses := 2 }),
    (52, { rec .ranging with cls := .low, outstanding := some 4409 }),
    (70, { rec .polling with cls := .low, nextEligible := 5003 })]
  { s with si := { s.si with markerCount := 5000 }
           params := { s.params with regionStart := 0, pMin := 2, pollLength := 3, pExtraMax := 3, latestPollStart := 200 } }

/-- The six entries of the MAC's map. -/
def macMap : List MapEntry :=
  [⟨0, 3, 0, 6, 10⟩, ⟨12, 0, 4, 16, 20⟩, ⟨31, 0, 4, 36, 8⟩, ⟨9, 1, 4, 3, 2⟩, ⟨44, 0, 4, 190, 16⟩, ⟨27, 0, 4, 44, 4⟩]

theorem test_map_candidates : mapPart.candidates = [8, 5, 44, 27] ∧ mapPart.positions macMap = [0, 3, 36, 39, 44] := by
  decide

theorem test_map_edited :
    let t := nextOf (exec (.map 4410 6 (macMap.flatMap MapEntry.bytes)) mapPart)
    t.mp = { pollsPlaced := 4, reclaimedSlots := 28 } ∧ told t = [(.regionViolation, none, [1, 3])] ∧
      t.si.sticky.regionViolationSeen = true ∧
      t.paths.dsOut = [itemBytes 0x02 (halfBytes 4410 ++ 6 :: ([⟨0, 3, 0, 6, 10⟩, ⟨12, 0, 4, 16, 20⟩, ⟨8, 2, 0, 0, 3⟩,
        ⟨5, 2, 0, 3, 3⟩, ⟨44, 2, 0, 36, 3⟩, ⟨27, 2, 0, 39, 3⟩] : List MapEntry).flatMap MapEntry.bytes)] ∧
      [5, 8, 27, 44, 52, 70].map (fun id => (t.record? id).bind (·.outstanding)) =
        [some 4410, some 4410, some 4410, some 4410, some 4409, none] := by decide

/-- R8: a map whose length does not fit its entry count is malformed and forwarded as it came. -/
theorem test_map_malformed :
    let t := nextOf (exec (.map 7 2 [0, 0, 0, 0, 0, 0]) (one (rec .polling)))
    told t = [(.mapMalformed, none, [2])] ∧ t.paths.dsOut = [[0x02, 0, 12, 0, 7, 2, 0, 0, 0, 0, 0, 0]] := by decide

/-- Chapter 6, the first answer of the exchange: -256, +24. -/
theorem test_ranging_first_answer :
    let t := nextOf (exec (.pollReport (burst 5 9 .good 60 700 0xE2)) (one { rec .polling with outstanding := some 9 }))
    (t.record? 5).map (fun r => (r.state, r.avg, r.attempts)) = some (.ranging, some 960, 1) ∧
      (t.record? 5).map (fun r => (r.message, r.lastTiming, r.lastPower)) =
        some (some (.rangeAdjust (-256) 24), 700, -30) := by decide

/-- Chapter 6, the end of the exchange: ranged at P2 with average 1054. -/
theorem test_ranging_ranged :
    let t := nextOf (exec (.pollReport (burst 5 9 .good 70 3 2))
      (one { rec .ranging with outstanding := some 9, avg := some 1032, attempts := 5, lastTiming := 188 }))
    (t.record? 5).map (fun r => (r.state, r.avg, r.attempts, r.profile, r.lastTiming, r.lastPower)) =
      some (.admitWait, some 1054, 0, 2, 3, 2) ∧ t.ac.waitList = [5] := by decide

/-- Chapter 6: t = 188, p = 0 gives the correction -188, 0. -/
theorem test_correction_inside_tolerance :
    (correction 4 256 188, correction 4 24 0, correction 4 24 (-6)) = (-188, 0, 6) := by decide

/-- Chapter 2, "a hold that arrives during ranging": HOLD waits, and the ranged terminal is HELD. -/
theorem test_hold_during_ranging :
    let t := nextOf (exec (.hold 1 5) (one { rec .ranging with attempts := 3, outstanding := some 9 }))
    let u := nextOf (exec (.pollReport (burst 5 9 .good 60 0 0)) t)
    t.insertion.cells = [.response 1 0x05 .ok 0 0 [0x01]] ∧ (t.record? 5).map (·.holdReq) = some true ∧
      u.stateOf 5 = some .held ∧ told u = [(.holdGranted, some 5, [4])] := by decide

/-- Chapter 7, the level figures: N = 40, markers 1, 2, 5, 8. -/
theorem test_levels :
    [9, 13, 9, 4].map (fun o => (permille o 40, rawLevelOf [50, 100, 200, 300, 450, 600, 800] (permille o 40))) =
      [(225, 3), (325, 4), (225, 3), (100, 2)] := by decide

/-- Chapter 7, the held level and counter of markers 1, 3, 5 and 6, with a level hold of 4. -/
theorem test_held_levels :
    [heldAfterMarker 3 1 0 4, heldAfterMarker 2 4 0 4, heldAfterMarker 3 4 2 4, heldAfterMarker 2 4 3 4] =
      [(3, 0), (4, 1), (4, 3), (3, 0)] := by decide

/-- Chapter 7, marker 7: the storm of level 5 with 256 frames remaining counts to 255 and B_eff becomes 78. -/
theorem test_storm_marker :
    let s := part .run []
    let s := { s with ac := { s.ac with banks := [200, 180, 150, 120, 100, 90, 80, 70], heldLevel := 3, effLevel := 3,
                                        bEff := 108, storm := some { level := 5, remaining := 256 }, levelHold := 4 } }
    let t := s.applyStaged.countStorm.announceBudget
    t.ac.storm = some { level := 5, remaining := 255 } ∧ t.ac.bEff = 78 ∧ told t = [(.levelChanged, none, [3, 5, 78])] := by
  decide

/-- Chapter 8, "an admission pass with preemption". Each head's cost is its overhead on a table made for the example. -/
def admission : State :=
  let table := [⟨true, -40, 240, 0⟩, ⟨true, 0, 240, 1⟩, ⟨true, 1, 240, 2⟩, ⟨true, 2, 240, 3⟩]
  let served (st : TState) (cls : Cls) (cost : Nat) : Record := { rec st with cls := cls, cost := cost, load := 0 }
  let waits (st : TState) (cls : Cls) (load : Nat) : Record := { rec st with cls := cls, load := load }
  let s := part .run [(2, served .inService .critical 30), (3, served .inService .critical 28),
    (6, waits .admitWait .critical 2880), (14, served .inService .high 20), (21, waits .shed .high 960),
    (33, waits .admitWait .high 2160), (41, served .inService .low 5), (50, waits .admitWait .low 240),
    (58, served .fading .low 7)]
  { s with lm := { profiles := table }, ac := { s.ac with committedSum := 90, bEff := 100, waitList := [6, 21, 33, 50] } }

theorem test_admission_pass :
    let t := admission.admissionStage
    t.ac.committedSum = 99 ∧ t.ac.waitList = [33, 50, 58] ∧ told t = [(.terminalShed, some 58, [7]),
      (.terminalAdmitted, some 6, [0, 12]), (.terminalAdmitted, some 21, [0, 4])] ∧ t.ac.shedNote = [58] := by decide

/-- Chapter 8, "the two orders of the race": ADMIT tries 3, expiry first, then the report without effect. -/
theorem test_race_expiry_first :
    let s := { one { rec .confirming with cost := 6, admitTries := 3, confirmTimer := some 1 } with
      ac := { State.reset.ac with committedSum := 6 } }
    let t := nextOf (exec (.confirmTimerExpiry 5) s)
    let u := nextOf (exec (.burstReport .data (burst 5 1 .good 60 0 0)) t)
    t.stateOf 5 = some .lost ∧ told t = [(.terminalLost, some 5, [3, 6, 64])] ∧ t.ac.committedSum = 0 ∧
      u.tt = t.tt ∧ told u = told t := by decide

/-- Chapter 8, the same race with ADMIT tries 1: the retry, and then confirmation that discards the ADMIT. -/
theorem test_race_retry_then_report :
    let s := one { rec .confirming with cost := 27, admitTries := 1, confirmTimer := some 1, outageStart := some 0 }
    let t := nextOf (exec (.confirmTimerExpiry 5) s)
    let u := nextOf (exec (.burstReport .data (burst 5 1 .good 24 0 0)) t)
    (t.record? 5).map (fun r => (r.state, r.admitTries, r.message, r.confirmTimer)) =
        some (.confirming, 2, some .admitMsg, none) ∧
      (u.record? 5).map (fun r => (r.state, r.message, r.fade, r.probation, r.restorations)) =
        some (.inService, none, 64, 500, 1) := by decide

/-- Chapter 9, "one control section": M = 4, six places offered. -/
theorem test_control_section :
    let held (id : Nat) (st : TState) (cls : Cls) (m : Message) (p : Nat) : Nat × Record :=
      (id, { rec st with cls := cls, message := some m, profile := p, addr := BitVec.ofNat 48 id })
    let s := part .run [held 3 .confirming .critical .admitMsg 2, held 9 .ranging .high (.rangeAdjust (-40) 6) 0,
      held 14 .inService .high .profileSet 3, held 22 .held .high .suspend 0, held 40 .shed .low .suspend 0,
      held 57 .confirming .low .admitMsg 1]
    let t := nextOf (exec (.controlSection 6 []) { s with params := { s.params with messageBudget := 4 } })
    t.paths.dsOut = [[0x03, 0, 41, 6, 0x62, 3, 0, 0, 0, 0, 0, 3, 2, 0x61, 9, 0, 0, 0, 0, 0, 9, 6, 0xFF, 0xD8,
      0x63, 14, 0, 0, 0, 0, 0, 14, 3, 0x64, 22, 0, 0, 0, 0, 0, 22]] ∧
      t.messageOrder = [40, 57] ∧ (t.record? 3).bind (·.confirmTimer) = some 16 ∧
      (t.record? 57).map (·.confirmTimer) = some none := by decide

/-- An Unlisted Queue of stations 1 to n. -/
def queued (n : Nat) (overrun : Bool) : State :=
  let s := part .run []
  { s with uq := { s.uq with
      acceptA := { code := 0, mask := 0xFFFFFF, enabled := true }, overrun := overrun
      queue := (List.range n).map fun i => ⟨BitVec.ofNat 48 (i + 1), 1, 1, 0, 0, 0, 1⟩ } }

/-- Chapter 10: the sixteenth station is queued, the seventeenth turned away and told of once. -/
theorem test_unlisted_overrun :
    let t := nextOf (exec (.contentionReportUnlisted (burst 0 2200 .good 44 0 0 [0, 0, 0, 0, 0, 16])) (queued 15 false))
    let u := nextOf (exec (.contentionReportUnlisted (burst 0 2201 .good 44 0 0 [0, 0, 0, 0, 0, 17])) t)
    let v := nextOf (exec (.contentionReportUnlisted (burst 0 2201 .good 44 0 0 [0, 0, 0, 0, 0, 18])) u)
    told v = [(.unlistedArrived, none, [16, 16, 44]), (.unlistedOverrun, none, [17])] ∧ v.uq.overrun = true ∧
      v.uq.queue.length = 16 := by decide

/-- Chapter 10: U3's update keeps its place; UNLISTED_RELEASE would have named U1 and 15 entries. -/
theorem test_unlisted_update_and_release :
    let t := nextOf (exec (.contentionReportUnlisted (burst 0 2202 .good 50 0 0 [0, 0, 0, 0, 0, 3])) (queued 16 true))
    (t.uq.queue[2]?).map (fun e => (e.addr, e.firstFrame, e.lastFrame, e.snr, e.seen)) = some (3, 1, 2202, 50, 2) ∧
      (nextOf (exec (.unlistedRelease 7) t)).insertion.cells =
        [.response 7 0x10 .ok 0 0 [0, 0, 0, 0, 0, 1, 15]] := by decide

/-- Chapter 11, "drops and the gap mark": at 63 notices one is queued, the next dropped. -/
theorem test_gap_mark :
    let n : Notice := ⟨.frameLost, 0, none, [], false⟩
    let s := { part .run [] with mu := { State.reset.mu with notices := List.replicate 63 n } }
    let t := s.notify .terminalLost (some 5) [3, 6, 64]
    let u := t.notify .mapMalformed none [129]
    (t.mu.notices.length, t.mu.gapPending) = (64, false) ∧ (u.mu.notices.length, u.mu.gapPending) = (64, true) ∧
      u.si.sticky.noticesDropped = true := by decide

/-- Chapter 11, "a sector reset during a LOAD_TERMINALS": two entries applied, index 3, remaining 3. -/
theorem test_reset_during_load :
    let e : ProvEntry := ⟨1, 0xB1, 0, 0, 0, 0⟩
    let s := busy .run (.loadTerminals 40 (List.replicate 5 e) 2) [(5, { rec .inService with cost := 6 })]
    let t := nextOf (exec (.sectorReset 41 7) s)
    t.insertion = { cells := [.response 40 0x02 .aborted 3 3 [], .response 41 0x14 .ok 0 0 []], reserved := 0 } ∧
      t.si.mode = .config ∧ t.mu.inFlight = none ∧ (t.record? 5).map (fun r => (r.state, r.cost, r.lastReason)) =
        some (.polling, 0, .sectorReset) := by decide

/-- Chapter 1, "order of cells and items on US-out": the response before the end-of-frame report, four notices after it. -/
theorem test_us_out_order :
    let n : Notice := ⟨.frameLost, 0, none, [], false⟩
    let s := { part .run [] with
      mu := { State.reset.mu with notices := List.replicate 6 n }
      insertion := { cells := [.response 1 0x12 .ok 0 0 []], reserved := 0 } }
    let t := nextOf (exec (.endOfFrameReport 901 []) s)
    let u := nextOf (exec .usOutBoundary (nextOf (exec .usOutBoundary t)))
    let v := nextOf (exec .noticeEmission u)
    u.paths.usOut = [[0x21, 0, 8, 1, 0x12, 0, 0, 0], [0x12, 0, 5, 3, 0x85]] ∧ u.paths.emissionDue = some 4 ∧
      v.insertion.cells.length = 4 ∧ v.mu.notices.length = 2 := by decide

/-- R171: parameters loaded after the report was sent leave its emission the old E of 4; the next report's E is 8. -/
theorem test_new_E_from_next_report :
    let n : Notice := ⟨.frameLost, 0, none, [], false⟩
    let s := { part .config [] with mu := { State.reset.mu with notices := List.replicate 20 n } }
    let report (u : State) := nextOf (exec .usOutBoundary (nextOf (exec (.endOfFrameReport 901 []) u)))
    let loaded := nextOf (exec (.loadSectorParameters 9 ((defaultParams.values.set 25 8).map (BitVec.ofNat 16))) (report s))
    loaded.params.noticesPerReport = 8 ∧ (nextOf (exec .noticeEmission loaded)).mu.notices.length = 16 ∧
      (report { loaded with insertion := State.reset.insertion, paths := State.reset.paths }).paths.emissionDue = some 8 := by
  decide

/-- 12.6: TERMINAL_SHED of terminal 7 at frame 0102h with the gap mark, value -2; and FRAME_LOST, which names no terminal. -/
theorem test_notice_cell_bytes :
    (PartCell.notice ⟨.terminalShed, 0x0102, some 7, [-2], true⟩).bytes =
        [0x22, 0, 15, 0x04, 0x01, 0x02, 0x03, 7, 1, 0xFF, 0xFF, 0xFF, 0xFF, 0xFF, 0xFE] ∧
      (PartCell.notice ⟨.frameLost, 0, none, [], false⟩).bytes = [0x22, 0, 9, 0x0F, 0, 0, 0, 0, 0] := by decide

/-- 12.2: the four messages of terminal 5, address A1h; power -2 before timing 300. -/
theorem test_message_bytes :
    let r := { rec .confirming with profile := 3 }
    [Message.rangeAdjust 300 (-2), .admitMsg, .profileSet, .suspend].map (messageBytes 5 r) =
      [[0x61, 5, 0, 0, 0, 0, 0, 0xA1, 0xFE, 0x01, 0x2C], [0x62, 5, 0, 0, 0, 0, 0, 0xA1, 3],
       [0x63, 5, 0, 0, 0, 0, 0, 0xA1, 3], [0x64, 5, 0, 0, 0, 0, 0, 0xA1]] := by decide

/-- R61, R65: a marker counts a hold-off of 1 down to 0, and one at 0 becomes POLLING; the stages of AC before or after. -/
theorem test_marker_hold_off :
    let s := (part .run [(5, { rec .lost with holdOff := 1 }), (6, rec .lost)]).countMarker
    ∀ picks ∈ [[], [false, false, false, false], [true, false, true, false]],
      (s.react picks id).tt.records.map (fun e => (e.2.state, e.2.holdOff)) = [(.lost, 0), (.polling, 0)] := by decide

/-- R70, R71: a cancel request gives up ADMIT_WAIT where it is resolved before the pass, and comes too late after it. -/
theorem test_cancel_race :
    let s := { one { rec .admitWait with cancelReq := true } with
      ac := { State.reset.ac with waitList := [5], banks := [100, 0, 0, 0, 0, 0, 0, 0] } }
    (s.react [] id).stateOf 5 = some .lost ∧ (s.react [false, false, false, false] id).stateOf 5 = some .confirming ∧
      told (s.react [false, false, false, false] id) =
        [(.terminalAdmitted, some 5, [0, 27]), (.reentryCancelled, some 5, [1, 6])] := by decide

/-- R10, R16: the watchdog expires in RUN: COASTING, polls cancelled, FRAME_LOST. -/
theorem test_watchdog :
    let t := nextOf (exec .markerWatchdogExpiry (one { rec .polling with outstanding := some 3 }))
    t.si.mode = .coasting ∧ t.si.watchdog = none ∧ told t = [(.frameLost, none, [])] ∧
      (t.record? 5).map (·.outstanding) = some none := by decide

/-- R12: RUN entry with two profiles to re-clamp, a cost to recompute and nothing to shed. -/
theorem test_run_entry :
    let s := busy .config (.runEntry 3 0) [(5, { rec .inService with profile := 7, cost := 99 })]
    let s := { s with ac := { s.ac with staged := some [50, 40, 30, 20, 10, 10, 10, 10], committedSum := 99 } }
    let t := nextOf (exec (.runEntryOperation 5) s)
    t.si.mode = .run ∧ t.ac.committedSum = 6 ∧ t.ac.bEff = 38 ∧ t.ac.staged = none ∧
      (t.record? 5).map (fun r => (r.profile, r.cost)) = some (4, 6) ∧
      t.insertion.cells = [.response 3 0x01 .ok 0 0 []] := by decide

/-- R23, R24: an entry for a VACANT ID creates a POLLING record; an address mapped elsewhere fails. -/
theorem test_provisioning :
    let entry (id : Byte) : ProvEntry := ⟨id, 0xA1, 1, 300, 4, 0⟩
    let t := nextOf (exec .provisioningEntry (busy .run (.loadTerminals 9 [entry 7] 0) []))
    let u := nextOf (exec .provisioningEntry (busy .run (.loadTerminals 9 [entry 7] 0) [(5, rec .polling)]))
    t.tt.records = [(7, rec .polling)] ∧ t.tt.stationMap = [(7, 0xA1)] ∧
      t.insertion.cells = [.response 9 0x02 .ok 0 0 []] ∧
      u.insertion.cells = [.response 9 0x02 .duplicateAddress 1 1 []] ∧ u.ids = [5] := by decide

/-- R171: the first parameter out of range is the failing field, and the pairing of poll base and poll max is field 10. -/
theorem test_sector_parameters :
    let v := defaultParams.values.map (BitVec.ofNat 16)
    let answer (v : List Half) := (nextOf (exec (.loadSectorParameters 2 v) (part .config []))).insertion.cells
    answer v = [.response 2 0x0D .ok 0 0 []] ∧ answer (v.set 5 5) = [.response 2 0x0D .badValue 6 0 []] ∧
      answer ((v.set 8 64).set 9 63) = [.response 2 0x0D .badValue 10 0 []] ∧
      answer (v.set 13 4085) = [.response 2 0x0D .badValue 14 0 []] := by decide

/-- R7: a seventeenth cell holds DS-in until a cell leaves the Insertion Queue, and what waits behind it then goes on. -/
theorem test_held_downstream :
    let s := { part .run [] with
      insertion := { cells := List.replicate 16 (.response 1 0x12 .ok 0 0 []), reserved := 0 } }
    let t := nextOf (exec (.controlSection 0 []) (nextOf (exec (.readTerminal 8 5) s)))
    let u := nextOf (exec .usOutBoundary t)
    t.paths.dsOut = [] ∧ t.paths.dsHeld.length = 2 ∧ u.paths.dsOut = [[0x03, 0, 4, 0]] ∧
      u.insertion.cells.getLast? = some (.response 8 0x04 .vacant 0 0 []) := by decide

/-- R1: while the modulator holds DS-out's ready input low an item waits and DS-in is held; when it rises the item is sent, and
the item held behind it follows. -/
theorem test_held_by_modulator :
    let s := (part .run []).driveDsOut false
    let t := nextOf (exec (.controlSection 0 []) (nextOf (exec (.unroutedItem .downstream [9, 0, 3]) s)))
    let u := (t.driveDsOut false).driveDsOut true
    t.paths.dsOut = [] ∧ t.paths.dsItem = some [9, 0, 3] ∧ t.paths.dsHeld = [.control 0 []] ∧
      u.paths.dsOut = [[9, 0, 3], [0x03, 0, 4, 0]] ∧ u.paths.dsItem = none := by decide

/-- R13, R150, R172: one step of a sector reset leaves CONFIG at once, so a section taken before step 2 passes untouched. -/
theorem test_reset_first_step :
    let s := nextOf (exec (.sectorReset 4 1) (one { rec .inService with message := some .profileSet }))
    let t := nextOf (exec (.controlSection 6 []) s)
    s.si.mode = .config ∧ s.mu.inFlight = some (.sectorReset 4 1) ∧ t.paths.dsOut = [[0x03, 0, 4, 6]] ∧
      (t.nextResetStep.record? 5).map (fun r => (r.state, r.message)) = some (.polling, none) := by decide

/-! ## Witnesses: for each statement with hypotheses, a state and operands that meet them, clause by clause -/

/-- A part whose Insertion Queue holds n cells. -/
def filled (m : Mode) (n : Nat) : State :=
  { part m [] with insertion := { cells := List.replicate n (.response 1 0x12 .ok 0 0 []), reserved := 0 } }

/-- A part with a management cell's header in a state. -/
def headed (h : HeaderState) (s : State) : State :=
  { s with paths := { s.paths with header := h }
           insertion := { s.insertion with reserved := if h = .reserved then s.insertion.reserved + 1 else s.insertion.reserved } }

/-- A part with RESET_N low. -/
def low : State := { part .run [] with paths := { State.reset.paths with resetLow := true } }

/-- A part that owes an emission with an E, or holds an upstream item. -/
def owing (s : State) (due : Option Nat) (item : Option Passage) : State :=
  { s with paths := { s.paths with emissionDue := due, usItem := item } }

/-- A part whose DS-out is held, with an item that waits. -/
def waiting (s : State) : State := { s with paths := { s.paths with dsOutReady := false, dsItem := some [9, 0, 3] } }

/-- A part with accounts. -/
def accounts (sum bEff : Nat) (waits : List Nat) (s : State) : State :=
  { s with ac := { s.ac with committedSum := sum, bEff := bEff, waitList := waits } }

theorem witness_step : ({ State.reset with pending := [.usOutBoundary] } : State).pending = [.usOutBoundary] ∧
    State.reset.pending = [] := by decide

theorem witness_reset_low : low.paths.resetLow = true ∧ Instr.usOutBoundary ≠ .powerOn ∧ Instr.usOutBoundary ≠ .resetNFall := by
  decide

theorem witness_transparent : ∀ m ∈ [Mode.config, .coasting],
    (part m []).si.mode ≠ .run ∧ (part m []).dsReady ∧ (part m []).usReady := by decide

theorem witness_cut : (part .run []).dsReady ∧ (part .run []).usReady ∧ cutCell [0x01] = false ∧ cutCell [0x04, 0x00] = true ∧
    (headed .reserved (part .run [])).cellReady ∧ (filled .run 15).cellReady ∧ cutCell [0x04, 0x00, 0x09] = true := by decide

theorem witness_held_ports :
    (Instr.frameMarker 1 []).dsItem? = some (.marker 1 []) ∧ (headed .waiting (filled .run 16)).paths.header = .waiting ∧
      (Instr.hold 1 5).dsItem? = some (.command 1 (.hold 5)) ∧ needsPlace (.command 1 (.hold 5)) = true ∧
      needsPlace (.cut [0x04, 0x00, 0x09]) = true ∧ (filled .run 16).dsReady ∧ (filled .run 16).freePlaces = 0 ∧
      (Instr.endOfFrameReport 1 []).usItem? = some (.endOfFrame 1 []) ∧
      (owing (part .run []) none (some ⟨[1], false⟩)).paths.usItem.isSome ∧
      (owing (part .run []) (some 8) none).paths.usItem = none ∧ (waiting (part .run [])).paths.dsItem.isSome ∧
      (waiting (part .run [])).paths.dsItem = some [9, 0, 3] ∧ (part .run []).paths.dsItem = none := by decide

theorem witness_cut_header : (Instr.frameMarker 1 []).dsItem? = some (.marker 1 []) ∧ needsPlace (.marker 1 []) = false ∧
    (headed .reserved (part .run [])).paths.header = .reserved ∧ (headed .reserved (part .run [])).paths.dsItem = none ∧
    (headed .reserved (part .run [])).paths.resetLow = false := by decide

theorem witness_header : (filled .run 15).dsReady ∧ (filled .run 15).freePlaces = 1 ∧ (filled .run 16).dsReady ∧
    (filled .run 16).freePlaces = 0 := by decide

theorem witness_cell_checks : (part .run []).cellReady ∧ (headed .reserved (filled .run 15)).cellReady ∧
    ([0x04] : List Byte).length < 2 ∧ (busy .run (.loadTerminals 9 [] 0) []).cellReady ∧ paramsFit 0x15 [] = none ∧
    paramsFit 0x03 [] = some false ∧ paramsFit 0x02 [9] = some false := by decide

theorem witness_cell_command : (Instr.hold 1 5).dsItem? = some (.command 1 (.hold 5)) ∧ (Command.hold 5).lengthOk = true ∧
    (Instr.sectorReset 1 7).dsItem? = some (.command 1 (.sectorReset 7)) ∧ (part .run []).cellReady := by decide

theorem witness_busy : (busy .run (.sectorReset 9 1) []).cellReady ∧ (busy .run (.sectorReset 9 1) []).mu.inFlight.isSome ∧
    (Command.hold 5).code ≠ 0x14 ∧ (busy .run (.sectorReset 9 1) []).mu.inFlight = some (.sectorReset 9 1) := by decide

theorem witness_command_ready : ∀ m ∈ [Mode.config, .run, .coasting],
    (part m []).commandReady ∧ (headed .reserved (part m [])).commandReady ∧ (part m []).si.mode = m := by decide

theorem witness_run_entry : ∀ k ∈ [0, 1, 2, 3, 4], (busy .config (.runEntry 3 k) [(5, rec .inService)]).mu.inFlight =
    some (.runEntry 3 k) ∧ (busy .config (.runEntry 3 k) [(5, rec .inService)]).recordsSound ∧
    (busy .config (.runEntry 3 k) []).paths.resetLow = false := by decide

theorem witness_run_entry_idle : ∀ tag k, (part .config []).mu.inFlight ≠ some (.runEntry tag k) := by
  simp [part, State.reset]

/-- One provisioning entry in its turn, with an ID, an address, a class and a flags byte. -/
def loading (m : Mode) (e : ProvEntry) (rs : List (Nat × Record)) : State := busy m (.loadTerminals 9 [e] 0) rs

theorem witness_entry_failures :
    [(⟨0, 1, 0, 0, 0, 0⟩ : ProvEntry), ⟨5, 1, 3, 0, 0, 0⟩, ⟨5, 1, 0, 4096, 0, 0⟩, ⟨5, 1, 0, 0, 8, 0⟩, ⟨7, 0xA1, 0, 0, 0, 0⟩,
      ⟨5, 1, 0, 0, 0, 0⟩, ⟨5, 1, 2, 4095, 7, 0⟩].map (fun e => (loading .run e [(5, rec .lost)]).entryFailure e) =
      [some .badId, some .badValue, some .badValue, some .badValue, some .duplicateAddress, some .notHeld, some .notHeld] ∧
    (loading .run ⟨0, 1, 0, 0, 0, 0⟩ []).mu.inFlight = some (.loadTerminals 9 [⟨0, 1, 0, 0, 0, 0⟩] 0) := by decide

theorem witness_load_terminals_idle : ∀ tag es k, (part .config []).mu.inFlight ≠ some (.loadTerminals tag es k) := by
  simp [part, State.reset]

theorem witness_entry_creates : (loading .run ⟨255, 1, 2, 4095, 7, 1⟩ []).entryFailure ⟨255, 1, 2, 4095, 7, 1⟩ = none ∧
    (loading .run ⟨255, 1, 2, 4095, 7, 1⟩ []).record? 255 = none ∧
    (loading .run ⟨255, 1, 2, 4095, 7, 1⟩ []).paths.resetLow = false := by decide

theorem witness_entry_replaces :
    let e : ProvEntry := ⟨5, 1, 2, 10, 1, 0⟩
    let s := { loading .config e [(5, { rec .shed with profile := 4 })] with ac := { State.reset.ac with waitList := [5] } }
    s.recordsSound ∧ s.paths.resetLow = false ∧ s.entryFailure e = none ∧
      s.record? 5 = some { rec .shed with profile := 4 } ∧ (rec .shed).cls ≠ .low ∧ 5 ∈ s.ac.waitList := by decide

theorem witness_terminal_refusals : (part .run []).commandReady ∧ (part .run []).record? 5 = none ∧
    (one (rec .lost)).commandReady ∧ (one (rec .lost)).record? 5 = some (rec .lost) ∧ (one (rec .lost)).si.mode = .run ∧
    (one (rec .held)).record? 5 = some (rec .held) ∧ (one (rec .ranging)).record? 5 = some (rec .ranging) := by decide

theorem witness_terminal_commands : ∀ st ∈ stateOrder, (one (rec st)).commandReady ∧ (one (rec st)).recordsSound ∧
    (one (rec st)).record? 5 = some (rec st) ∧ (one (rec st)).si.mode = .run := by decide

theorem witness_release_request : (one { rec .ranging with holdReq := true }).commandReady ∧
    (one { rec .ranging with holdReq := true }).record? 5 = some { rec .ranging with holdReq := true } := by decide

theorem witness_load_profiles :
    let w : List ProfileWire := List.replicate 8 ⟨0, 0, 4, 0⟩
    (part .config []).commandReady ∧ w.length = 8 ∧
      (∀ e ∈ w.map profileOfWire, -40 ≤ e.threshold ∧ e.threshold ≤ 160 ∧ 4 ≤ e.capacity ∧ e.capacity ≤ 240 ∧ e.overhead ≤ 3) ∧
      (profileAt (w.map profileOfWire) 0).enabled = false ∧
      ¬ (∀ e ∈ (w.set 7 ⟨0, 161, 4, 0⟩).map profileOfWire, e.threshold ≤ 160) ∧
      (profileAt ((w.set 0 ⟨1, 0xFFD8, 240, 3⟩).map profileOfWire) 0).enabled = true ∧
      (((w.set 0 ⟨1, 0xFFD8, 240, 3⟩).map profileOfWire).filter (·.enabled)).Pairwise
        (fun a b => a.threshold < b.threshold ∧ a.capacity ≤ b.capacity) := by decide

theorem witness_reclamp : (busy .config (.loadProfiles 9 figures 0) [(5, { rec .lost with profile := 7 })]).mu.inFlight =
    some (.loadProfiles 9 figures 0) ∧ (profileAt figures 0).enabled = true ∧ (profileAt figures 4).enabled = true := by decide

theorem witness_reclamp_idle : ∀ tag t k, (part .config []).mu.inFlight ≠ some (.loadProfiles tag t k) := by
  simp [part, State.reset]

theorem witness_level_table :
    let good : List Half := [1, 1, 200, 300, 450, 600, 1001]
    (part .config []).commandReady ∧ good.length = 7 ∧ (good.map BitVec.toNat).all (fun th => 1 ≤ th && th ≤ 1001) ∧
      (good.map BitVec.toNat).Pairwise (· ≤ ·) ∧ ¬ ((good.set 0 0).map BitVec.toNat).all (fun th => 1 ≤ th && th ≤ 1001) := by decide

theorem witness_storm_budget : (part .coasting []).commandReady ∧ (255 : Byte) ≠ 0 ∧
    (List.replicate 8 (4095 : Half)).length = 8 ∧ (List.replicate 8 (4095 : Half)).all (·.toNat ≤ 4095) ∧
    4096 ∈ (List.replicate 8 (4095 : Half)).set 7 4096 ∧ 4095 < (4096 : Half).toNat := by decide

theorem witness_parameters :
    let v := defaultParams.values.map (BitVec.ofNat 16)
    let x (w : List Half) (i : Nat) := (w.map BitVec.toNat).getD i 0
    let inRange (w : List Half) (i : Nat) := (paramRanges.getD i (0, 0)).1 ≤ x w i ∧ x w i ≤ (paramRanges.getD i (0, 0)).2
    (part .config []).commandReady ∧ v.length = 27 ∧ (∀ i, i < 27 → inRange v i) ∧ x v 8 ≤ x v 9 ∧
      x v 13 + x v 10 * x v 11 ≤ 4096 ∧ ¬ inRange (v.set 26 99) 26 ∧ (∀ j, j < 26 → inRange (v.set 26 99) j) ∧
      (∀ i, i < 27 → inRange ((v.set 8 2).set 9 1) i) ∧ x ((v.set 8 2).set 9 1) 9 < x ((v.set 8 2).set 9 1) 8 ∧
      (∀ i, i < 27 → inRange (v.set 13 4085) i) ∧ 4096 < x (v.set 13 4085) 13 + x v 10 * x v 11 := by decide

theorem witness_unlisted_commands : (part .run []).commandReady ∧ (part .run []).uq.queue = [] ∧ (queued 16 true).commandReady ∧
    (queued 16 true).uq.queue.head?.isSome := by decide

/-- A report of a station that is not listed, not queued, and accepted, at a full queue. -/
theorem witness_overrun :
    let b := burst 0 1 .good 44 0 0 [0, 0, 0, 0, 0, 17]
    (queued 16 false).usEngine ∧ b.outcome = .good ∧ b.address = some 17 ∧ (queued 16 false).stationId 17 = none ∧
      (queued 16 false).accepts 17 = true ∧ (∀ e ∈ (queued 16 false).uq.queue, e.addr ≠ 17) ∧
      (queued 16 false).uq.queue.length = Config.unlistedPlaces ∧ (queued 16 false).uq.overrun = false := by decide

theorem witness_notice_mask : (part .run []).commandReady ∧ (List.replicate 17 (1 : Byte) ++ [0]).all (fun e => e = 0 || e = 1) ∧
    (List.replicate 17 (1 : Byte) ++ [0]).length = 18 ∧
    2 ∈ List.replicate 17 (1 : Byte) ++ [2] ∧ (2 : Byte) ≠ 0 ∧ (2 : Byte) ≠ 1 := by decide

theorem witness_sector_reset : (part .run []).commandReady ∧
    (∀ k ∈ [1, 2, 3, 4, 5, 6], (busy .config (.sectorReset 9 k) [(5, rec .polling)]).mu.inFlight = some (.sectorReset 9 k)) ∧
    ∀ c ∈ [InFlight.loadTerminals 9 [⟨1, 1, 0, 0, 0, 0⟩] 0, .loadProfiles 9 figures 4, .runEntry 9 4],
      (busy .config c []).cellReady ∧ 1 ≤ (busy .config c []).insertion.reserved := by decide

theorem witness_failed_report : (one (rec .shed)).usEngine ∧ (one (rec .shed)).recordsSound ∧
    ∀ r ∈ [{ rec .fading with fade := 251 }, { rec .fading with fade := 252 }, { rec .inService with fade := 123 },
        { rec .inService with fade := 124 }, { rec .confirming with fade := 96 }],
      (one r).usEngine ∧ (one r).recordsSound ∧ (one r).record? 5 = some r := by decide

theorem witness_profile_change : (one (rec .inService)).recordsSound ∧
    (one (rec .inService)).record? 5 = some (rec .inService) ∧ 3 ≠ (rec .inService).profile := by decide

theorem witness_shed_check :
    let s := accounts 30 20 [7] (part .run [(5, { rec .inService with cost := 10 }),
      (6, { rec .inService with cls := .low, cost := 20 }), (7, rec .admitWait)])
    s.recordsSound ∧ s.accountsSound ∧ s.ac.bEff < s.ac.committedSum ∧ (accounts 30 30 [7] s).ac.committedSum ≤ 30 := by decide

theorem witness_good_report : ∀ r ∈ [rec .inService, { rec .fading with fade := 66 }, { rec .fading with fade := 65 },
      rec .confirming], (one r).usEngine ∧ (one r).recordsSound ∧ (one r).record? 5 = some r ∧
    (one r).params.fadeExit = 64 := by decide

theorem witness_average : ∀ avg ∈ [some (-640 : Int), some 2560], ∀ a, avg = some a → -640 ≤ a ∧ a ≤ 2560 := by
  simp

/-- Downgrade at v = 81 from P4 to P3; upgrade at v = 80 to P3 and no further; no candidate at v = 31;
P0 below its T of 24 at v = 23, in a table that passes the checks. -/
theorem witness_selection :
    let fits (bound : Int) (q : Nat) := q ≤ 4 ∧ (profileAt figures q).enabled = true ∧ (profileAt figures q).threshold ≤ bound
    (profileAt figures 0).enabled = true ∧ selectionValue 1296 < (profileAt figures 4).threshold ∧ fits 81 3 ∧
      (∀ q, fits 81 q → q ≤ 3) ∧ (profileAt figures 2).threshold ≤ selectionValue 1280 ∧ fits (80 - 8) 3 ∧
      (∀ q, fits (80 - 8) q → q ≤ 3) ∧ (profileAt figures 0).threshold ≤ selectionValue 496 ∧ (∀ q, ¬ fits (31 - 8) q) ∧
      selectionValue 320 < (profileAt figures 1).threshold ∧ (∀ q, ¬ fits 20 q) ∧
      (rec .inService).profile = 0 ∧ selectionValue 383 < (profileAt figures 0).threshold ∧ tableSound figures ∧
      (∀ q, ¬ fits 23 q) := by
  refine ⟨by decide, by decide, by decide, ?_, by decide, by decide, ?_, by decide, ?_, by decide, ?_, by decide, by decide,
    by decide, ?_⟩
  all_goals
    rintro q ⟨hq, h⟩
    revert h
    interval_cases q <;> decide

theorem witness_poll_report :
    (one (rec .held)).usEngine ∧ (one (rec .held)).recordsSound ∧ (one (rec .held)).record? 6 = none ∧
      ∀ r ∈ [rec .held, { rec .polling with outstanding := some 9, misses := 255 }, { rec .ranging with outstanding := some 9 }],
        (one r).usEngine ∧ (one r).record? 5 = some r := by decide

theorem witness_measurement :
    (∀ r ∈ [{ rec .ranging with attempts := 15 }, { rec .ranging with attempts := 16 }, { rec .ranging with holdReq := true }],
      (one r).recordsSound ∧ (one r).record? 5 = some r ∧ (one r).params.rangingMaxAttempts = 16) ∧
    ((4 : Int).natAbs ≤ defaultParams.timingTolerance ∧ (-4 : Int).natAbs ≤ defaultParams.powerTolerance) ∧
    ¬ ((5 : Int).natAbs ≤ defaultParams.timingTolerance) := by decide

theorem witness_keepalive : ∀ r ∈ [{ rec .shed with outstanding := some 9 }, { rec .shed with outstanding := some 9, fade := 248 },
      { rec .shed with outstanding := some 9, fade := 247 }], (one r).usEngine ∧ (one r).recordsSound ∧
    (one r).record? 5 = some r ∧ r.state = .shed ∧ r.outstanding = some 9 := by decide

theorem witness_end_of_frame : ∀ r ∈ [{ rec .polling with outstanding := some 9 }, { rec .ranging with outstanding := some 9 },
      { rec .ranging with outstanding := some 9, attempts := 16 }, { rec .shed with outstanding := some 9, fade := 247 },
      { rec .shed with outstanding := some 9, fade := 248 }, { rec .held with outstanding := some 9 }],
    (one r).usEngine ∧ (one r).recordsSound ∧ (one r).record? 5 = some r ∧ (one r).params.rangingMaxAttempts = 16 ∧
    ((9 : FrameNumber) - 9).toNat ≤ 32767 ∧ ((32776 : FrameNumber) - 9).toNat = 32767 ∧
    32767 < ((8 : FrameNumber) - 9).toNat ∧ 32767 < ((32777 : FrameNumber) - 9).toNat := by decide

theorem witness_contention : ∀ st ∈ stateOrder,
    let b := burst 0 1 .good 44 0 0 [0, 0, 0, 0, 0, 0xA1]
    (one (rec st)).usEngine ∧ (one (rec st)).recordsSound ∧ (one (rec st)).stationMapSound ∧ b.outcome = .good ∧ b.address = some 0xA1 ∧
      (one (rec st)).stationId 0xA1 = some 5 ∧ (one (rec st)).record? 5 = some (rec st) := by decide

theorem witness_screening :
    let b := burst 0 1 .good 44 0 0 [0, 0, 0, 0, 0, 16]
    let hit (f : Filter) : Prop := f.enabled = true ∧ ((16 : Address) ^^^ f.code) &&& ~~~f.mask = 0
    (queued 15 false).usEngine ∧ (queued 15 false).stationMapSound ∧ b.address = some 16 ∧ (queued 15 false).stationId 16 = none ∧
      hit (queued 15 false).uq.acceptA ∧ ¬ hit (queued 15 false).uq.reject ∧
      (queued 16 true).uq.queue.any (·.addr = 16) ∧ (∀ e ∈ (queued 15 false).uq.queue, e.addr ≠ 16) ∧
      (queued 15 false).uq.queue.length < 16 ∧ 16 ≤ (queued 16 true).uq.queue.length ∧ (queued 16 true).uq.overrun = true ∧
      ¬ hit (part .run []).uq.acceptA := by decide

/-- A map whose operation keeps, strips and reports entries, with candidates in all three groups. -/
theorem witness_map_lists : mapPart.recordsSound ∧ mapPart.paramsSound ∧ (mapPart.keptEntries macMap).length = 2 ∧
    (mapPart.strippedEntries macMap).length = 3 ∧ (mapPart.placements macMap) = [(8, 0), (5, 3), (44, 36), (27, 39)] := by
  decide

theorem witness_map : mapPart.dsReady ∧ mapPart.si.mode = .run ∧ 128 < (129 : Byte).toNat ∧
    ([] : List Byte).length ≠ 6 * (1 : Byte).toNat ∧ (6 : Byte).toNat ≤ 128 ∧
    (macMap.flatMap MapEntry.bytes).length = 6 * (6 : Byte).toNat ∧ mapPart.recordsSound ∧ mapPart.paramsSound ∧
    macMap.length ≤ 128 := by decide

theorem witness_section : (one (rec .held)).dsReady ∧ (one (rec .held)).si.mode = .run ∧ (one (rec .held)).recordsSound := by
  decide

theorem witness_marker : (one (rec .inService)).dsReady ∧ (one (rec .inService)).si.mode = .run ∧
    (one (rec .inService)).recordsSound ∧
    (part .coasting []).dsReady ∧ (part .coasting []).si.mode = .coasting := by decide

theorem witness_lost_at_marker : ∀ r ∈ [rec .lost, { rec .lost with holdOff := 1 }], (one r).dsReady ∧ (one r).recordsSound ∧
    (one r).waitListSound ∧ (one r).ot.lostNow = [] ∧ (one r).record? 5 = some r ∧ r.cancelReq = false ∧
    r.confirmTimer = none := by decide

/-- The laws the account's invariant gathers, from the parts that can be decided, where no command is in flight. -/
theorem ledgerSound_of_idle (s : State) (h : s.mu.inFlight = none) (hr : s.recordsSound) (ha : s.accountsSound)
    (hw : s.waitListSound) (hb : s.budgetSound) : s.ledgerSound :=
  ⟨hr, fun _ => ⟨ha, hw⟩, hb, by simp [State.inFlightSound, h]⟩

/-- A record with a cancel request and, in a committed state, a cost. -/
def asked (st : TState) : Record := { rec st with cancelReq := true, cost := if st.committed then 27 else 0 }

/-- A part in RUN with that record and the accounts that go with it. -/
def marked (r : Record) : State :=
  accounts (if r.state.committed then 27 else 0) 30 (if r.state.waiting then [5] else []) (one r)

/-- A record in every state, each with a cancel request; and a confirm timer that runs, that ends with a try left, and that
ends with none. -/
def askedRecords : List Record :=
  stateOrder.map asked ++ [{ asked .confirming with confirmTimer := some 2 },
    { asked .confirming with confirmTimer := some 1, admitTries := 2 },
    { asked .confirming with confirmTimer := some 1, admitTries := 3 }]

theorem witness_each_at_marker : ∀ r ∈ askedRecords, (marked r).dsReady ∧ (marked r).si.mode = .run ∧
    (marked r).ot.lostNow = [] ∧ (marked r).ac.shedNote = [] ∧
    (marked r).record? 5 = some r ∧ (marked r).params.admitTriesMax = 3 ∧ (marked r).mu.mask[9]? ≠ some false := by decide

theorem witness_each_at_marker_fields (r : Record) (h : r ∈ askedRecords) : (marked r).fieldsSound := by
  have range : ∀ r ∈ askedRecords, recordInRange r := by decide
  have consistent : ∀ r ∈ askedRecords, recordConsistent r := by decide
  refine ⟨show failingField defaultParams.values = none by decide, fun e he => ?_⟩
  obtain rfl := List.mem_singleton.mp (show e ∈ [(5, r)] from he)
  exact ⟨range r h, consistent r h⟩

theorem witness_each_at_marker_ledger (r : Record) (h : r ∈ askedRecords) : (marked r).ledgerSound := by
  have parts : ∀ r ∈ askedRecords, (marked r).mu.inFlight = none ∧ (marked r).recordsSound ∧ (marked r).accountsSound ∧
      (marked r).waitListSound ∧ (marked r).budgetSound := by decide
  obtain ⟨hi, hr, ha, hw, hb⟩ := parts r h
  exact ledgerSound_of_idle _ hi hr ha hw hb

/-- A record in every state stands before each stage, and one lost by cancel resolution before the hold-off stage. -/
theorem witness_stages : (∀ r ∈ askedRecords, (marked r).recordsSound) ∧
    ((one (rec .lost)).noteLost 5).recordsSound ∧ 5 ∈ ((one (rec .lost)).noteLost 5).ot.lostNow := by decide

/-- R132: an empty wait list. -/
theorem witness_empty_wait_list : (part .run []).ac.waitList = [] := by decide

/-- R112, R114, R115: a marker at which a storm runs out and the level falls tells of both, in that order. -/
theorem test_marker_storm_and_level :
    let s := part .run []
    let s := { s with ac := { s.ac with storm := some ⟨5, 1⟩, effLevel := 5, banks := [200, 180, 150, 120, 100, 90, 80, 70] } }
    told (s.react [] id) = [(.stormExpired, none, [5]), (.levelChanged, none, [5, 0, 188])] := by decide

/-- The cases of the admission pass: a head shed in this operation, one that fits exactly, one with no room to make, and one
with room to make (the example of chapter 8). -/
theorem witness_admission :
    let preemptible (s : State) (c : Nat) := (s.tt.records.filter fun x => x.2.state.committed && decide (0 < x.2.cost) &&
      decide (c < x.2.cls.code)).map (·.2.cost)
    let waits := part .run [(5, rec .shed)]
    (accounts 0 27 [5] waits).recordsSound ∧ (accounts 0 27 [5] waits).record? 5 = some (rec .shed) ∧
      airtimeCost figures 300 0 = 27 ∧ (preemptible (accounts 0 26 [5] waits) 1).sum < 0 + 27 - 26 ∧
      5 ∈ ((accounts 0 27 [5] waits).noteShed 5).ac.shedNote ∧
      admission.recordsSound ∧ 6 ∉ admission.ac.shedNote ∧ admission.stateOf 6 = some .admitWait ∧
      admission.ac.bEff < admission.ac.committedSum + 12 ∧
      admission.ac.committedSum + 12 - admission.ac.bEff ≤ (preemptible admission 0).sum ∧
      (preemptible admission 0).sum ≤ admission.ac.committedSum := by decide

theorem witness_expiries :
    (∀ r ∈ [rec .lost, { rec .lost with holdOff := 1 }, { rec .fading with probation := 1 }, { rec .fading with probation := 2 },
        { rec .confirming with confirmTimer := some 1, admitTries := 2 },
        { rec .confirming with confirmTimer := some 1, admitTries := 3 }, rec .confirming],
      (one r).paths.resetLow = false ∧ (one r).recordsSound ∧ (one r).record? 5 = some r ∧ (one r).si.mode = .run ∧
        (one r).si.watchdog.isSome ∧ (one r).params.admitTriesMax = 3) ∧
    (part .config []).si.mode ≠ .run ∧ (part .config []).si.watchdog = none ∧ (one (rec .lost)).record? 6 = none ∧
    (let s := part .run []
     let s := { s with ac := { s.ac with storm := some ⟨5, 1⟩, heldLevel := 1, holdCounter := 31 } }
     s.ac.rawLevel < s.ac.heldLevel ∧ s.ac.levelHold ≤ s.ac.holdCounter + 1 ∧ (s.ac.storm.map (·.remaining)) = some 1) ∧
    (let s := part .run []
     (∀ st, s.ac.storm = some st → 1 < st.remaining) ∧ s.ac.heldLevel ≤ s.ac.rawLevel) := by
  simp only [part]
  decide

theorem witness_boundary : (owing (part .run []) (some 8) none).paths.emissionDue = some 8 ∧
    (filled .run 1).paths.emissionDue = none ∧ (filled .run 1).insertion.cells.head?.isSome ∧
    (headed .waiting (filled .run 16)).insertion.cells.tail.length = 15 ∧ (part .run []).insertion.cells = [] ∧
    (owing (part .run []) none (some ⟨[0x12, 0, 5, 0, 1], true⟩)).paths.usItem = some ⟨[0x12, 0, 5, 0, 1], true⟩ := by decide

/-- A cell given whole at a full queue waits with itself on DS-in, and two reports wait on US-in. -/
theorem witness_boundary_held :
    let s := headed .waiting (filled .run 16)
    let s := { s with paths := { s.paths with dsHeld := [.cell [4, 5], .marker 1 []] } }
    let u := owing (part .run []) none (some ⟨[1], false⟩)
    let u := { u with paths := { u.paths with usHeld := [.endOfFrame 1 [], .raw [9]] } }
    s.paths.emissionDue = none ∧ s.paths.header = .waiting ∧ s.insertion.cells.tail.length + s.insertion.reserved = 15 ∧
      s.insertion.cells.head?.isSome ∧ 16 ≤ (filled .run 17).insertion.cells.tail.length ∧
      u.paths.emissionDue = none ∧ u.insertion.cells = [] ∧ u.paths.usItem = some ⟨[1], false⟩ := by decide

theorem witness_notice_queue : (part .run []).mu.mask.length = 18 ∧
    (part .run []).mu.mask[NoticeKind.mapMalformed.code - 1]? = some true ∧
    ((part .run []).mu.mask.set 0 false)[NoticeKind.terminalLost.code - 1]? = some false := by decide

/-- A state with records in three states and a marker to take. -/
def lawful : State :=
  { accounts 27 30 [7] (part .run [(5, { rec .inService with cost := 27, addr := 1 }), (6, { rec .lost with addr := 2 }),
      (7, { rec .admitWait with addr := 3 })]) with pending := [.frameMarker 1 []] }

theorem witness_ledger_law : lawful.ledgerSound :=
  ledgerSound_of_idle _ rfl (by decide) (by decide) (by decide) (by decide)

theorem witness_invariants : lawful.insertionSound ∧ lawful.noticesSound ∧ lawful.recordsSound ∧ lawful.stationMapSound ∧
    lawful.unlistedSound ∧ lawful.watchdogSound ∧ lawful.pollsSound ∧
    lawful.pending = [.frameMarker 1 []] := by decide

theorem witness_fields_law : lawful.fieldsSound := by decide

theorem witness_emission_law : lawful.emissionSound ∧ (owing lawful (some 1) none).emissionSound ∧
    (owing lawful (some 8) none).emissionSound := by decide

/-- The same state with settings that are not the power-on values: a storm, staged banks, and the table of the figures. -/
def settled : State :=
  { lawful with ac := { lawful.ac with storm := some ⟨7, 256⟩, staged := some (List.replicate 8 4095), heldLevel := 7,
                                       rawLevel := 7, effLevel := 7, holdCounter := 254, levelHold := 255 } }

theorem witness_settings_law : lawful.settingsSound := by decide

theorem witness_settings_law_full : settled.settingsSound := by decide

theorem witness_settings_law_in_flight : (busy .config (.loadProfiles 9 figures 0) []).settingsSound := by decide

theorem witness_read_back : (Command.loadTerminals (List.replicate 8 ⟨1, 2, 3, 4, 5, 6⟩)).lengthOk = true ∧
    (DsItem.marker 1 [2]).bytes.length ≤ 65535 ∧ (DsItem.map 1 2 []).bytes.length ≤ 65535 ∧
    (DsItem.control 1 []).bytes.length ≤ 65535 ∧ (DsItem.cell []).bytes.length ≤ 65535 ∧
    (UsItem.contention (burst 0 1 .good 44 0 0 [1, 2, 3, 4, 5, 6])).bytes.length ≤ 65535 ∧
    6 ≤ (burst 0 1 .good 44 0 0 [1, 2, 3, 4, 5, 6]).tail.length ∧ (UsItem.endOfFrame 1 []).bytes.length ≤ 65535 := by decide

end Sys2Proof.Tests
end

section
/-! The commands of the queue and the ports: what `exec` makes of a command by the port it stands on, and the statements about
power-on, RESET_N and the passage of items. -/

namespace Sys2Proof.Machine

open Sys2Proof

/-! ## Commands by port -/

/-- A command that offers an item on DS-in is the receipt of that item (R1, log 10). -/
theorem exec_of_dsItem? {c : Instr} {i : DsItem} (h : c.dsItem? = some i) (s : State) :
    exec c s = .next (s.receiveDs i) := by
  cases c
  case itemCut path bytes => cases path <;> cases h; rfl
  case unroutedItem path bytes => cases path <;> cases h; rfl
  all_goals cases h
  all_goals rfl

/-- A command that offers an item on US-in is the receipt of that item (R1). -/
theorem exec_of_usItem? {c : Instr} {i : UsItem} (h : c.usItem? = some i) (s : State) :
    exec c s = .next (s.receiveUs i) := by
  cases c
  case itemCut path bytes => cases path <;> cases h; rfl
  case unroutedItem path bytes => cases path <;> cases h; rfl
  all_goals cases h
  all_goals rfl

/-- While RESET_N is low nothing is carried out. -/
theorem State.whenUp_low {s : State} (h : s.paths.resetLow = true) (s' : State) : s.whenUp s' = s := by
  simp [State.whenUp, h]

theorem State.whenUp_up {s : State} (h : s.paths.resetLow = false) (s' : State) : s.whenUp s' = s' := by
  simp [State.whenUp, h]

/-- Every command but the two that move RESET_N waits for it to be high (R18, log 15). -/
theorem exec_resetLow {c : Instr} {s : State} (h : s.paths.resetLow = true) (hp : c ≠ .powerOn) (hf : c ≠ .resetNFall) :
    exec c s = .next s := by
  cases c
  case powerOn => exact absurd rfl hp
  case resetNFall => exact absurd rfl hf
  case itemCut path bytes => cases path <;> exact congrArg Host.Outcome.next (State.whenUp_low h _)
  case unroutedItem path bytes => cases path <;> exact congrArg Host.Outcome.next (State.whenUp_low h _)
  all_goals exact congrArg Host.Outcome.next (State.whenUp_low h _)

/-! ## One step -/

theorem step_of_cons {s : State} {c : Instr} {rest : List Instr} (h : s.pending = c :: rest) :
    step s = exec c { s with pending := rest } := by
  simp only [step, h]

theorem step_of_nil {s : State} (h : s.pending = []) : step s = .next s.idle := by simp [step, h]

/-- Without a sector reset in flight there is no step of one to go on by (log 5). -/
theorem State.nextResetStep_of_not {s : State} (h : ∀ tag k, s.mu.inFlight ≠ some (.sectorReset tag k)) :
    s.nextResetStep = s := by
  unfold State.nextResetStep
  split
  · next tag k hk => exact absurd hk (h tag k)
  · rfl

/-- Settles O1. -/
theorem stepTakesFrontCommand : Obligations.StepTakesFrontCommand := by
  refine ⟨fun c rest s h => step_of_cons h, fun s h => ⟨fun hl => ?_, fun hh => ?_⟩⟩
  · rw [step_of_nil h, State.idle, if_pos hl]
  · refine ⟨Config.dsOutReady s.raceTick, ?_⟩
    have idle : step s = .next (s.nextResetStep.driveDsOut (Config.dsOutReady s.raceTick)).nextRace := by
      rw [step_of_nil h, State.idle, hh]; rfl
    rw [idle]
    split
    · rfl
    · next hn => rw [State.nextResetStep_of_not fun tag k hk => hn tag k hk]

/-! ## Power-on and RESET_N -/

/-- Settles O2. -/
theorem resetHoldsPowerOnValues : Obligations.ResetHoldsPowerOnValues := by
  refine ⟨rfl, rfl, rfl, rfl, rfl, rfl, rfl, rfl, rfl, rfl, rfl⟩

/-- The laws that are given by cases on the command in flight, which power-on leaves absent. -/
theorem State.reset_ledgerSound : State.reset.ledgerSound :=
  ⟨by decide, fun _ => by decide, fun h => absurd rfl h, trivial⟩

/-- Settles O3. -/
theorem resetMeetsEveryLaw : Obligations.ResetMeetsEveryLaw :=
  ⟨State.reset_ledgerSound, by decide, by decide, by decide, by decide, by decide, by decide, by decide, by decide, by decide,
    by decide⟩

/-- The fall of RESET_N: a place reserved for a header in passage is released, and the ports are emptied (R18). -/
theorem State.resetFalls_eq (s : State) : s.resetFalls = { s with
    insertion := { s.insertion with
      reserved := if s.paths.header = .reserved then s.insertion.reserved - 1 else s.insertion.reserved }
    paths := { resetLow := true, header := .none, dsOutReady := s.paths.dsOutReady, dsItem := none, dsHeld := []
               usItem := none, usHeld := [], emissionDue := none, dsOut := s.paths.dsOut, usOut := s.paths.usOut } } := by
  by_cases h : s.paths.header = .reserved <;> simp [State.resetFalls, State.cutHeader, h]

/-- Settles O4. -/
theorem resetNGovernsThePart : Obligations.ResetNGovernsThePart :=
  ⟨fun _ => rfl, fun s => congrArg Host.Outcome.next s.resetFalls_eq, fun _ _ h hp hf => exec_resetLow h hp hf⟩

/-! ## Items on ready ports -/

theorem exec_of_dsReady {c : Instr} {i : DsItem} (h : c.dsItem? = some i) {s : State} (hs : s.dsReady) :
    exec c s = .next (s.routeDs i) := by
  rw [exec_of_dsItem? h, State.receiveDs_of_ready hs]

theorem exec_of_usReady {c : Instr} {i : UsItem} (h : c.usItem? = some i) {s : State} (hs : s.usReady) :
    exec c s = .next (State.routeUs Config.selectAfterFailedKeepalive s i) := by
  rw [exec_of_usItem? h, State.receiveUs_of_ready hs]

/-- Settles O5, item by item: outside RUN the routing of each is its offer. -/
theorem transparentOutsideRun : Obligations.TransparentOutsideRun := by
  intro s hm
  refine ⟨fun hs => ?_, fun hs => ?_⟩
  · have cut := State.cutHeader_of_none hs.2.1
    refine ⟨fun frame count body => ?_, fun offered messages => ?_, fun hc frame tail => ?_⟩ <;>
      rw [exec_of_dsReady rfl hs]
    · simp [State.routeDs, hm, cut]
    · simp [State.routeDs, hm, cut]
    · simp [State.routeDs, State.takeMarker, hc, cut, State.recordFrame]
  · refine ⟨fun kind b => ?_, fun b => ?_, fun b => ?_, fun b => ?_, fun frame tail => ?_⟩ <;>
      rw [exec_of_usReady rfl hs] <;> simp [State.routeUs, hm]

/-- A management cell cut after its header is removed, and its place with it (R2, R163). -/
theorem State.receiveDs_cutCell {s : State} (h : s.cellReady) {bytes : List Byte} (hc : cutCell bytes = true)
    (hl : 3 ≤ bytes.length) : s.receiveDs (.cut bytes) = s.cellRemoved 1 := by
  have hw := State.header_of_cellReady h
  simp only [State.receiveDs, State.whenUp, State.arriveDs, State.routeDs, h.1, h.2.2, hw, hc, Nat.not_lt.2 hl,
    State.takeReserved_of_cellReady h]
  rfl

/-- Settles O6, by the routing of an item no block takes and of a cut item. -/
theorem unroutedAndCutItemsPass : Obligations.UnroutedAndCutItemsPass := by
  intro s bytes
  refine ⟨fun hs => ?_, fun hs hc => ?_, fun hs hc hl => ?_, fun hs hc hl => ?_, fun hs => ⟨?_, ?_⟩⟩
  · rw [exec_of_dsReady rfl hs, State.routeDs, State.cutHeader_of_none hs.2.1]
  · rw [exec_of_dsReady rfl hs, State.routeDs, if_pos hc, State.cutHeader_of_none hs.2.1]
  · rw [exec_of_dsReady rfl hs, State.routeDs, if_neg (by simp [hc]), if_pos hl, State.cutHeader_of_none hs.2.1]
  · rw [exec_of_dsItem? rfl, State.receiveDs_cutCell hs hc hl]
  · rw [exec_of_usReady rfl hs, State.routeUs]
  · rw [exec_of_usReady rfl hs, State.routeUs]

/-! ## Items that wait, and cells that are cut -/

/-- An item that needs no place begins by cutting the cell whose header is in passage (R2). -/
theorem State.routeDs_cutHeader {i : DsItem} (h : needsPlace i = false) (s : State) :
    s.routeDs i = s.cutHeader.routeDs i := by
  have twice : s.cutHeader.cutHeader = s.cutHeader := by
    simp only [State.cutHeader]
    split_ifs <;> simp_all
  have mode : s.cutHeader.si = s.si := by
    simp only [State.cutHeader]
    split_ifs <;> rfl
  cases i
  case cell | command => cases h
  case cut bytes =>
    simp only [needsPlace, Bool.and_eq_false_iff, decide_eq_false_iff_not] at h
    simp only [State.routeDs, twice]
    split_ifs with hc hl
    · rfl
    · rfl
    · exact absurd (h.resolve_left hc) (by omega)
  all_goals simp only [State.routeDs, twice, mode]

/-- Settles O8: the header by the free places, and the cut by `State.routeDs_cutHeader`. -/
theorem cellHeaderReservesPlace : Obligations.CellHeaderReservesPlace := by
  refine ⟨fun s hs => ⟨fun hp => ?_, fun hp => ?_⟩, fun c i s hc hn hl hr hi => ?_⟩
  · rw [exec_of_dsReady rfl hs, State.routeDs, State.cutHeader_of_none hs.2.1, State.takeHeader, if_pos hp]
    rfl
  · rw [exec_of_dsReady rfl hs, State.routeDs, State.cutHeader_of_none hs.2.1, State.takeHeader,
      if_neg (by omega)]
    rfl
  · have cut : s.cutHeader = { s with
        paths := { s.paths with header := .none }
        insertion := { s.insertion with reserved := s.insertion.reserved - 1 } } := by
      simp only [State.cutHeader, if_pos hr]; rfl
    rw [← cut, exec_of_dsItem? hc, exec_of_dsItem? hc]
    have up : s.cutHeader.dsReady := by rw [cut]; exact ⟨hl, rfl, hi⟩
    rw [State.receiveDs_of_ready up, ← State.routeDs_cutHeader hn]
    simp [State.receiveDs, State.whenUp, State.arriveDs, hl, hr, hi]

/-- A cell for which no place is free holds DS-in (R7, log 9). -/
theorem State.routeDs_noPlace {s : State} {i : DsItem} (h : needsPlace i = true) (hh : s.paths.header = .none)
    (hp : s.freePlaces = 0) : s.routeDs i = (s.setHeader .waiting).holdDs i := by
  have key (handle : State → State) : s.takeReserved i handle = (s.setHeader .waiting).holdDs i := by
    simp [State.takeReserved, State.takeHeader, hh, hp]
  cases i
  case cell payload => exact key fun s => s.takeCell payload
  case command tag c => exact key fun s => s.takeCommand tag c
  case cut bytes =>
    simp only [needsPlace, Bool.and_eq_true, decide_eq_true_eq] at h
    simp only [State.routeDs, h.1, Nat.not_lt.2 h.2]
    exact key _
  all_goals cases h

/-- Settles O7: waiting on DS-in and US-in, the emission that is owed, and the two offers. -/
theorem heldPortsQueueTheirItems : Obligations.HeldPortsQueueTheirItems := by
  refine ⟨fun c i s hc hl hw => ?_, fun c i s hc hn hs hp => ?_, fun c i s hc hl hu => ?_, fun c i s hc hl hu he => ?_,
    fun s => ⟨fun bytes eof => rfl, fun bytes => s.offerDs_eq bytes, fun hn level => ?_, fun item hi => ⟨rfl, ?_⟩⟩⟩
  · rw [exec_of_dsItem? hc, State.receiveDs, State.whenUp_up hl, State.arriveDs, if_pos hw]
    rfl
  · rw [exec_of_dsReady hc hs, State.routeDs_noPlace hn hs.2.1 hp]
    rfl
  · rw [exec_of_usItem? hc, State.receiveUs, State.whenUp_up hl, State.arriveUs, if_pos hu]
    rfl
  · obtain ⟨e, he⟩ := Option.isSome_iff_exists.1 he
    have settled := State.settleEmission_of_some he
    have due : s.settleEmission.paths.emissionDue = none := by rw [settled]; rfl
    have path : s.settleEmission.paths.usItem = none := by rw [settled]; exact hu
    have low : s.settleEmission.paths.resetLow = false := by rw [settled]; exact hl
    refine ⟨s.settleEmission, congrArg Host.Outcome.next (State.whenUp_up hl _), ?_⟩
    rw [exec_of_usItem? hc, exec_of_usItem? hc]
    simp [State.receiveUs, State.whenUp, State.arriveUs, hl, hu, path, low, State.settleEmission_of_none due]
  · exact State.driveDsOut_of_none hn level
  · simp only [State.driveDsOut, hi]
    rfl

end Sys2Proof.Machine
end

section
/-! The induction over one step, once: a property that the parts of a step keep is kept by every step, whatever items have
waited on the ports and are taken within it. -/

namespace Sys2Proof.Machine

open Sys2Proof

/-- What must be shown of a property for every step to keep it: one field for each operation that reaches a block. The ports'
own records, the items held on them and DS-out's ready input are `ports`. -/
structure State.KeptByParts (P : State → Prop) : Prop where
  queue : ∀ {s : State} (l : List Instr), P s → P { s with pending := l }
  race : ∀ {s : State}, P s → P s.nextRace
  ports : ∀ {s : State} (p : Paths), p.header = s.paths.header → p.emissionDue = s.paths.emissionDue → P s →
    P { s with paths := p }
  powerOn : ∀ {s : State}, P s → P s.powerOn
  resetFalls : ∀ {s : State}, P s → P s.resetFalls
  reserve : ∀ {s : State}, s.paths.header ≠ .reserved → 0 < s.freePlaces → P s → P (s.reservePlace.setHeader .reserved)
  wait : ∀ {s : State}, s.paths.header ≠ .reserved → P s → P (s.setHeader .waiting)
  discard : ∀ {s : State}, s.paths.header = .reserved → P s → P ((s.setHeader .none).releasePlace)
  cell : ∀ {s : State} (payload : List Byte), s.paths.header = .reserved → P s → P ((s.setHeader .none).takeCell payload)
  command : ∀ {s : State} (tag : Byte) (c : Command), s.paths.header = .reserved → P s →
    P ((s.setHeader .none).takeCommand tag c)
  marker : ∀ {s : State} (frame : FrameNumber), P s → P (s.takeMarker frame)
  malformed : ∀ {s : State} (values : List Int), s.si.mode = .run → P s →
    P ((s.notify .mapMalformed none values).setMapMalformedSeen)
  edited : ∀ {s : State} (es : List MapEntry) (frame : FrameNumber) (ids : List Nat) (polls slots : Nat),
    s.si.mode = .run → P s → P (((s.reportRegion es).setOutstanding frame ids).setMapFigures polls slots)
  emitted : ∀ {s : State} (id : Nat), s.si.mode = .run → P s → P (s.update id (emittedRecord s.params.confirmTimeout))
  grantReport : ∀ {s : State} (id : Nat) (o : BurstOutcome) (snr : Int), s.si.mode = .run → P s → P (s.grantReport id o snr)
  pollReport : ∀ {s : State} (select : Bool) (id : Nat) (frame : FrameNumber) (m : Measurement), s.si.mode = .run → P s →
    P (State.pollReport select s id frame m)
  contention : ∀ {s : State} (b : Burst), s.si.mode = .run → P s → P (s.contention b)
  endFrame : ∀ {s : State} (select : Bool) (frame : FrameNumber), s.si.mode = .run → P s → P (State.endFrame select s frame)
  emission : ∀ {s : State}, P s → P s.settleEmission
  sent : ∀ {s : State} {cell : PartCell} {rest : List PartCell}, s.insertion.cells = cell :: rest → P s →
    P { s with insertion := { s.insertion with cells := rest } }
  cleared : ∀ {s : State} (eof : Bool), P s → P (s.clearUs eof)
  watchdog : ∀ {s : State}, P s → P s.watchdogExpires
  entryStage : ∀ {s : State} (last : Nat), P s → P (State.nextEntryStage last s)
  entry : ∀ {s : State}, P s → P s.nextEntry
  reclamp : ∀ {s : State}, P s → P s.reclampAll
  holdOff : ∀ {s : State} (id : Nat), P s → P (s.expireHoldOff id)
  probation : ∀ {s : State} (id : Nat), P s → P (s.expireProbation id)
  confirmTimer : ∀ {s : State} (id : Nat), P s → P (s.expireConfirmTimer id)
  storm : ∀ {s : State}, P s → P s.expireStorm
  levelHold : ∀ {s : State}, P s → P s.expireLevelHold
  resetStep : ∀ {s : State}, P s → P s.nextResetStep

/-- An operation that keeps a property keeps it however often it is carried out. -/
theorem repeatOp_kept {P : State → Prop} {f : State → State} (h : ∀ s, P s → P (f s)) (n : Nat) {s : State} (hs : P s) :
    P (repeatOp f n s) := by
  induction n generalizing s with
  | zero => exact hs
  | succ n ih => exact ih (h s hs)

/-- An operation that keeps a property keeps it along a list. -/
theorem foldl_kept {α : Type} {P : State → Prop} {op : State → α → State} (h : ∀ s a, P s → P (op s a)) (l : List α)
    {s : State} (hs : P s) : P (l.foldl op s) := by
  induction l generalizing s with
  | nil => exact hs
  | cons a l ih => exact ih (h s a hs)

theorem State.whenUp_kept {P : State → Prop} {s t : State} (hs : P s) (ht : P t) : P (s.whenUp t) := by
  simp only [State.whenUp]
  split
  · exact hs
  · exact ht

namespace State.KeptByParts

variable {P : State → Prop} (h : KeptByParts P) {s : State}

include h

/-! ### DS-in -/

theorem offerDs (bytes : List Byte) (hs : P s) : P (s.offerDs bytes) := by
  rw [State.offerDs_eq]
  refine h.ports _ ?_ ?_ hs <;> split <;> rfl

theorem cutHeader (hs : P s) : P s.cutHeader := by
  simp only [State.cutHeader]
  split
  · next hr => exact h.discard hr hs
  · exact hs

theorem takeHeader (hr : s.paths.header ≠ .reserved) (hs : P s) : P s.takeHeader := by
  simp only [State.takeHeader]
  split
  · next hp => exact h.reserve hr hp hs
  · exact h.wait hr hs

theorem holdDs (i : DsItem) (hs : P s) : P (s.holdDs i) := h.ports _ rfl rfl hs

/-- A cell is handled once its place is reserved. -/
theorem takeReserved (i : DsItem) {handle : State → State}
    (hh : ∀ u : State, u.paths.header = .reserved → P u → P (handle (u.setHeader .none))) (hs : P s) :
    P (s.takeReserved i handle) := by
  have place (u : State) (hu : P u) :
      P (if u.paths.header = .reserved then handle (u.setHeader .none) else u.holdDs i) := by
    split
    · next hr => exact hh u hr hu
    · exact h.holdDs i hu
  simp only [State.takeReserved]
  by_cases hr : s.paths.header = .reserved
  · rw [if_pos hr]; exact place s hs
  · rw [if_neg hr]; exact place _ (h.takeHeader hr hs)

theorem takeMapInRun (hm : s.si.mode = .run) (frame : FrameNumber) (count : Byte) (body : List Byte) (hs : P s) :
    P (s.takeMapInRun frame count body) := by
  simp only [State.takeMapInRun]
  split
  · exact h.offerDs _ (h.malformed _ hm hs)
  · exact h.offerDs _ (h.edited _ _ _ _ _ hm hs)

theorem emitMessages (ids : List Nat) (n length : Nat) (hm : s.si.mode = .run) (hs : P s) :
    P (State.emitMessages ids n length s).1 := by
  induction ids generalizing n length s with
  | nil => exact hs
  | cons id ids ih =>
    cases n with
    | zero => exact hs
    | succ n =>
      simp only [State.emitMessages]
      split
      · exact ih _ _ hm hs
      · split
        · exact hs
        · exact ih _ _ hm (h.emitted id hm hs)

theorem fillSection (hm : s.si.mode = .run) (offered : Byte) (messages : List Byte) (hs : P s) :
    P (s.fillSection offered messages) := h.offerDs _ (h.emitMessages _ _ _ hm hs)

theorem routeDs (i : DsItem) (hs : P s) : P (s.routeDs i) := by
  have cut := h.cutHeader hs
  have mode : s.cutHeader.si = s.si := by
    simp only [State.cutHeader]
    split <;> rfl
  have header : s.cutHeader.paths.header ≠ .reserved := by
    simp only [State.cutHeader]
    split
    · simp
    · assumption
  cases i with
  | marker frame tail => exact h.offerDs _ (h.marker frame cut)
  | map frame count body =>
    simp only [State.routeDs]
    split
    · next hm => exact h.takeMapInRun (mode ▸ hm) frame count body cut
    · exact h.offerDs _ cut
  | control offered messages =>
    simp only [State.routeDs]
    split
    · next hm => exact h.fillSection (mode ▸ hm) offered messages cut
    · exact h.offerDs _ cut
  | cellHeader => exact h.takeHeader header cut
  | cell payload => exact h.takeReserved _ (handle := fun s => s.takeCell payload) (fun u hr hu => h.cell payload hr hu) hs
  | command tag c =>
    exact h.takeReserved _ (handle := fun s => s.takeCommand tag c) (fun u hr hu => h.command tag c hr hu) hs
  | raw bytes => exact h.offerDs _ cut
  | cut bytes =>
    simp only [State.routeDs]
    split
    · exact h.offerDs _ cut
    · split
      · exact cut
      · exact h.takeReserved _ (handle := State.releasePlace) (fun u hr hu => h.discard hr hu) hs

theorem arriveDs (i : DsItem) (hs : P s) : P (s.arriveDs i) := by
  simp only [State.arriveDs]
  split
  · exact h.holdDs i hs
  · exact h.routeDs i hs

theorem resumeDs (hs : P s) : P s.resumeDs :=
  foldl_kept (fun _ i hu => h.arriveDs i hu) _ (h.ports _ rfl rfl hs)

theorem wakeDs (hs : P s) : P s.wakeDs := by
  simp only [State.wakeDs]
  split
  · next hw => exact h.resumeDs (h.reserve (by simp [hw.1]) hw.2 hs)
  · exact hs

theorem driveDsOut (level : Bool) (hs : P s) : P (s.driveDsOut level) := by
  simp only [State.driveDsOut]
  split
  · exact h.resumeDs (h.ports (s := s) _ rfl rfl hs)
  · exact h.ports _ rfl rfl hs

/-! ### US-in and US-out -/

theorem readyUs (bytes : List Byte) (eof : Bool) (hs : P s) : P (s.readyUs bytes eof) := h.ports _ rfl rfl hs

theorem routeUs (select : Bool) (i : UsItem) (hs : P s) : P (State.routeUs select s i) := by
  cases i with
  | burst kind b =>
    simp only [State.routeUs]
    split
    · next hm => exact h.readyUs _ _ (h.grantReport _ _ _ hm hs)
    · exact h.readyUs _ _ hs
  | poll b =>
    simp only [State.routeUs]
    split
    · next hm => exact h.pollReport _ _ _ _ hm hs
    · exact h.readyUs _ _ hs
  | contention b =>
    simp only [State.routeUs]
    split
    · next hm => exact h.contention b hm.1 hs
    · exact h.readyUs _ _ hs
  | endOfFrame frame tail =>
    simp only [State.routeUs]
    split
    · next hm => exact h.readyUs _ _ (h.endFrame _ _ hm hs)
    · exact h.readyUs _ _ hs
  | raw bytes => exact h.readyUs _ _ hs
  | cut bytes => exact h.readyUs _ _ hs

theorem arriveUs (select : Bool) (i : UsItem) (hs : P s) : P (State.arriveUs select s i) := by
  simp only [State.arriveUs]
  split
  · exact h.ports _ rfl rfl hs
  · exact h.routeUs _ _ (h.emission hs)

theorem wakeUs (select : Bool) (hs : P s) : P (State.wakeUs select s) :=
  foldl_kept (fun _ i hu => h.arriveUs select i hu) _ (h.ports _ rfl rfl hs)

theorem boundary (select : Bool) (hs : P s) : P (State.boundary select s) := by
  have settled := h.emission hs
  simp only [State.boundary]
  split
  · next hc => exact h.wakeDs (h.ports _ rfl rfl (h.sent hc settled))
  · split
    · exact settled
    · exact h.wakeUs _ (h.ports _ rfl rfl (h.cleared _ settled))

/-! ### One step -/

theorem exec {t : State} {c : Instr} (hs : P s) (he : Machine.exec c s = .next t) : P t := by
  rcases hd : c.dsItem? with _ | i
  · rcases hu : c.usItem? with _ | i
    · cases c
      case itemCut path bytes => cases path <;> simp [Instr.dsItem?, Instr.usItem?] at hd hu
      case unroutedItem path bytes => cases path <;> simp [Instr.dsItem?, Instr.usItem?] at hd hu
      case powerOn => cases he; exact h.powerOn hs
      case resetNFall => cases he; exact h.resetFalls hs
      case markerWatchdogExpiry => cases he; exact State.whenUp_kept hs (h.watchdog hs)
      case runEntryOperation last => cases he; exact State.whenUp_kept hs (repeatOp_kept (fun _ hu => h.entryStage last hu) 5 hs)
      case provisioningEntry => cases he; exact State.whenUp_kept hs (h.entry hs)
      case loadProfilesReclamp => cases he; exact State.whenUp_kept hs (h.reclamp hs)
      case noticeEmission => cases he; exact State.whenUp_kept hs (h.emission hs)
      case usOutBoundary => cases he; exact State.whenUp_kept hs (h.boundary _ hs)
      case holdOffExpiry id => cases he; exact State.whenUp_kept hs (h.holdOff _ hs)
      case probationExpiry id => cases he; exact State.whenUp_kept hs (h.probation _ hs)
      case confirmTimerExpiry id => cases he; exact State.whenUp_kept hs (h.confirmTimer _ hs)
      case stormExpiry => cases he; exact State.whenUp_kept hs (h.storm hs)
      case levelHoldExpiry => cases he; exact State.whenUp_kept hs (h.levelHold hs)
      all_goals simp [Instr.dsItem?, Instr.usItem?] at hd hu
    · rw [exec_of_usItem? hu] at he
      cases he
      exact State.whenUp_kept hs (h.arriveUs _ i hs)
  · rw [exec_of_dsItem? hd] at he
    cases he
    exact State.whenUp_kept hs (h.arriveDs i hs)

theorem idle (hs : P s) : P s.idle := by
  simp only [State.idle]
  split
  · exact hs
  · exact h.race (h.driveDsOut _ (h.resetStep hs))

/-- A property that every part of a step keeps is kept by the step. -/
theorem step {t : State} (hs : P s) (he : Machine.step s = .next t) : P t := by
  rcases hq : s.pending with _ | ⟨c, rest⟩
  · rw [step_of_nil hq] at he
    cases he
    exact h.idle hs
  · rw [step_of_cons hq] at he
    exact h.exec (h.queue rest hs) he

end State.KeptByParts

end Sys2Proof.Machine
end

section
/-! What an operation on records is made of: updates of records, the sum, the wait list, the two notes and notices. A relation
that holds along those holds along the operation, so that each fact about all of them (AC's figures, what identifies
a record) is proved from a few small facts. -/

namespace Sys2Proof.Machine

open Sys2Proof

/-- The fields of a record that no marker changes. -/
def Record.identity (r : Record) : Address × Cls × Nat × Nat × Nat × Int × Int :=
  (r.addr, r.cls, r.load, r.ceiling, r.profile, r.lastTiming, r.lastPower)

/-- A change of a record as a marker makes them: it keeps what identifies the record, sets no cancel request and places no
poll. -/
structure MarkerChange (f : Record → Record) : Prop where
  identity : ∀ r, (f r).identity = r.identity
  cancelReq : ∀ r, (f r).cancelReq = true → r.cancelReq = true
  outstanding : ∀ r, r.outstanding = none → (f r).outstanding = none

/-- A relation that holds along the parts of a marker's operations on records, and along several of them. -/
structure MarkerClosed (R : State → State → Prop) : Prop where
  refl : ∀ s, R s s
  trans : ∀ {s t u}, R s t → R t u → R s u
  notify : ∀ (s : State) kind id values, R s (s.notify kind id values)
  setSum : ∀ (s : State) sum, R s (s.setSum sum)
  setWaitList : ∀ (s : State) l, R s (s.setWaitList l)
  noteShed : ∀ (s : State) id, R s (s.noteShed id)
  noteLost : ∀ (s : State) id, R s (s.noteLost id)
  update : ∀ (s : State) id {f}, MarkerChange f → R s (s.update id f)
  updateAll : ∀ (s : State) {f}, (∀ id, MarkerChange (f id)) → R s (s.updateAll f)

theorem markerChange_lostRecord (base : Nat) (now : MarkerCount) (reason : LossReason) :
    MarkerChange (lostRecord base now reason) := ⟨fun _ => rfl, fun _ hc => hc, fun _ _ => rfl⟩

theorem markerChange_shedRecord (now : MarkerCount) : MarkerChange (shedRecord now) := ⟨fun _ => rfl, fun _ hc => hc, fun _ hn => hn⟩

theorem markerChange_admittedRecord (cost : Nat) : MarkerChange (admittedRecord cost) := ⟨fun _ => rfl, fun _ hc => hc, fun _ hn => hn⟩

theorem markerChange_retriedRecord : MarkerChange retriedRecord := ⟨fun _ => rfl, fun _ hc => hc, fun _ hn => hn⟩

theorem markerChange_holdOffVisit (now : MarkerCount) : MarkerChange (holdOffVisit now) := by
  constructor <;> intro r <;> simp only [holdOffVisit] <;> split_ifs <;> first | rfl | exact id

theorem markerChange_probationVisit : MarkerChange probationVisit := by
  constructor <;> intro r <;> simp only [probationVisit] <;> split_ifs <;> first | rfl | exact id

namespace MarkerClosed

variable {R : State → State → Prop} (h : MarkerClosed R)

include h

theorem withRecord {s : State} {id : Nat} {f : Record → State} (hf : ∀ r, s.record? id = some r → R s (f r)) :
    R s (s.withRecord id f) := by
  simp only [State.withRecord]
  split
  · next r hr => exact hf r hr
  · exact h.refl s

theorem foldl {α : Type} {op : State → α → State} (hop : ∀ s a, R s (op s a)) (l : List α) (s : State) :
    R s (l.foldl op s) :=
  foldl_kept (P := R s) (fun t a ht => h.trans ht (hop t a)) l (h.refl s)

theorem joinWaitList (s : State) (id : Nat) : R s (s.joinWaitList id) := h.setWaitList s _

theorem shedTerminal (s : State) (noted : Bool) (id : Nat) : R s (s.shedTerminal noted id) :=
  h.withRecord fun r _ => by
    have base := h.trans (h.setSum s (s.ac.committedSum - r.cost)) <|
      h.trans (h.update _ id (markerChange_shedRecord s.si.markerCount)) <|
        h.trans (h.notify _ .terminalShed (some id) [(r.cost : Int)]) (h.joinWaitList _ id)
    dsimp only
    split
    · exact h.trans base (h.noteShed _ id)
    · exact base

theorem shedWhileOver (noted : Bool) (n : Nat) (s : State) : R s (State.shedWhileOver noted n s) := by
  induction n generalizing s with
  | zero => exact h.refl s
  | succ n ih =>
    simp only [State.shedWhileOver]
    split
    · exact h.refl s
    · split
      · exact h.refl s
      · exact h.trans (h.shedTerminal s noted _) (ih _)

theorem shedCheck (s : State) (noted : Bool) : R s (s.shedCheck noted) := h.shedWhileOver noted _ s

theorem lose (s : State) (reason : LossReason) (id : Nat) : R s (s.lose reason id) :=
  h.withRecord fun r _ => by
    dsimp only
    have sum : R s (if r.state.committed = true then s.setSum (s.ac.committedSum - r.cost) else s) := by
      split
      · exact h.setSum s _
      · exact h.refl s
    generalize (if r.state.committed = true then s.setSum (s.ac.committedSum - r.cost) else s) = t at sum ⊢
    have list : R t (if r.state.waiting = true then t.leaveWaitList id else t) := by
      split
      · exact h.setWaitList t _
      · exact h.refl t
    generalize (if r.state.waiting = true then t.leaveWaitList id else t) = u at list ⊢
    have lost := h.trans (h.trans sum list)
      (h.update u id (markerChange_lostRecord u.params.holdOffBase u.si.markerCount reason))
    split
    · exact h.trans lost (h.trans (h.notify _ _ _ _) (h.notify _ _ _ _))
    · exact h.trans lost (h.notify _ _ _ _)

theorem resolveCancel (s : State) (id : Nat) : R s (s.resolveCancel id) :=
  h.withRecord fun r _ => by
    have cleared := h.update s id (f := fun r => { r with cancelReq := false })
      ⟨fun _ => rfl, fun _ hc => (by cases hc), fun _ hn => hn⟩
    dsimp only
    split
    · refine h.trans ?_ (h.notify _ _ _ _)
      split
      · exact h.trans cleared (h.trans (h.lose _ _ _) (h.noteLost _ _))
      · exact cleared
    · exact h.refl s

theorem expireConfirm (s : State) (id : Nat) : R s (s.expireConfirm id) :=
  h.withRecord fun r _ => by
    split
    · exact h.update s id markerChange_retriedRecord
    · exact h.lose s _ _

theorem confirmVisit (s : State) (id : Nat) : R s (s.confirmVisit id) :=
  h.withRecord fun r _ => by
    split
    · exact h.refl s
    · split
      · exact h.expireConfirm s id
      · exact h.update s id ⟨fun _ => rfl, fun _ hc => hc, fun _ hn => hn⟩

theorem admitTerminal (s : State) (id cost : Nat) : R s (s.admitTerminal id cost) :=
  h.withRecord fun _ _ => h.trans (h.setWaitList s _) <| h.trans (h.update _ id (markerChange_admittedRecord cost)) <|
    h.trans (h.setSum _ _) (h.notify _ _ _ _)

theorem makeRoom (headClass cost n : Nat) (s : State) : R s (State.makeRoom headClass cost n s) := by
  induction n generalizing s with
  | zero => exact h.refl s
  | succ n ih =>
    simp only [State.makeRoom]
    split
    · exact h.refl s
    · split
      · exact h.refl s
      · exact h.trans (h.shedTerminal s true _) (ih _)

theorem admissionPass (n : Nat) (s : State) : R s (State.admissionPass n s) := by
  induction n generalizing s with
  | zero => exact h.refl s
  | succ n ih =>
    simp only [State.admissionPass]
    split
    · exact h.refl s
    · split
      · exact h.refl s
      · split
        · exact h.refl s
        · split
          · exact h.trans (h.admitTerminal s _ _) (ih _)
          · split
            · exact h.trans (h.makeRoom _ _ _ s) (h.trans (h.admitTerminal _ _ _) (ih _))
            · exact h.refl s

/-- Every stage of a marker but the budget's, which sets AC's figures. -/
theorem runStage (rank : Nat → Nat) (s : State) {stage : MarkerStage} (hb : stage ≠ .budget) :
    R s (runStage rank s stage) := by
  cases stage with
  | cancel => exact h.foldl h.resolveCancel _ s
  | holdOff =>
    refine h.updateAll s (f := fun id r => if id ∈ s.ot.lostNow then r else holdOffVisit s.si.markerCount r) fun id => ?_
    split
    · exact ⟨fun _ => rfl, fun _ hc => hc, fun _ hn => hn⟩
    · exact markerChange_holdOffVisit _
  | probation => exact h.updateAll s fun _ => markerChange_probationVisit
  | confirm => exact h.foldl h.confirmVisit _ s
  | budget => exact absurd rfl hb
  | shedCheck => exact h.shedCheck s true
  | admission => exact h.admissionPass _ s

end MarkerClosed

/-- A relation that holds along the parts of every operation on records, and along several of them. -/
structure EngineClosed (R : State → State → Prop) : Prop where
  refl : ∀ s, R s s
  trans : ∀ {s t u}, R s t → R t u → R s u
  notify : ∀ (s : State) kind id values, R s (s.notify kind id values)
  setSum : ∀ (s : State) sum, R s (s.setSum sum)
  setWaitList : ∀ (s : State) l, R s (s.setWaitList l)
  noteShed : ∀ (s : State) id, R s (s.noteShed id)
  noteLost : ∀ (s : State) id, R s (s.noteLost id)
  update : ∀ (s : State) id f, R s (s.update id f)
  updateAll : ∀ (s : State) f, R s (s.updateAll f)

namespace EngineClosed

variable {R : State → State → Prop} (h : EngineClosed R)

include h

theorem marker : MarkerClosed R :=
  { refl := h.refl, trans := h.trans, notify := h.notify, setSum := h.setSum, setWaitList := h.setWaitList
    noteShed := h.noteShed, noteLost := h.noteLost, update := fun s id _ _ => h.update s id _
    updateAll := fun s _ _ => h.updateAll s _ }

theorem withRecord {s : State} {id : Nat} {f : Record → State} (hf : ∀ r, s.record? id = some r → R s (f r)) :
    R s (s.withRecord id f) := h.marker.withRecord hf

/-! ### Reports LM counts -/

theorem changeProfile (s : State) (id p : Nat) : R s (s.changeProfile id p) :=
  h.withRecord fun r _ => by
    dsimp only
    split
    · exact h.refl s
    · have changed (sum : Nat) (values : List Int) : R s
          (((s.update id (reprofiled s.lm.profiles p)).setSum sum).notify .profileChanged (some id) values) :=
        h.trans (h.update s id _) (h.trans (h.setSum _ _) (h.notify _ _ _ _))
      split
      · exact h.trans (changed _ _) (h.marker.shedCheck _ _)
      · exact changed _ _

theorem selectCommitted (s : State) (id : Nat) : R s (s.selectCommitted id) :=
  h.withRecord fun _ _ => h.changeProfile s id _

theorem enterFading (s : State) (id : Nat) : R s (s.enterFading id) :=
  h.withRecord fun r _ => by
    dsimp only
    have faded (values : List Int) : R s
        ((s.update id fun r => { r with state := .fading }).notify .fadingEntered (some id) values) :=
      h.trans (h.update s id _) (h.notify _ _ _ _)
    split
    · exact h.trans (faded _) (h.changeProfile _ _ _)
    · exact faded _

theorem countFailure (s : State) (id : Nat) (o : BurstOutcome) : R s (s.countFailure id o) :=
  h.withRecord fun r _ => by
    split
    · exact h.marker.lose s _ _
    · dsimp only
      split
      · exact h.trans (h.update s id _) (h.notify _ _ _ _)
      · exact h.update s id _

theorem failedReport (s : State) (id : Nat) (o : BurstOutcome) : R s (s.failedReport id o) :=
  h.trans (h.countFailure s id o) <| h.withRecord fun r _ => by
    split
    · exact h.enterFading _ id
    · exact h.refl _

theorem goodReport (s : State) (id : Nat) : R s (s.goodReport id) :=
  h.withRecord fun r _ => by
    dsimp only
    split
    · exact h.refl s
    · split
      · exact h.trans (h.update s id _) (h.trans (h.update _ id _) (h.notify _ _ _ _))
      · exact h.update s id _

theorem restore (s : State) (id : Nat) : R s (s.restore id) :=
  h.withRecord fun _ _ => h.trans (h.update s id _) (h.notify _ _ _ _)

theorem confirmIfWaiting (s : State) (id : Nat) : R s (s.confirmIfWaiting id) :=
  h.withRecord fun r _ => by
    split
    · exact h.trans (h.update s id _) (h.restore _ id)
    · exact h.refl s

theorem grantReport (s : State) (id : Nat) (o : BurstOutcome) (snr : Int) : R s (s.grantReport id o snr) :=
  h.withRecord fun r _ => by
    split
    · cases o with
      | good => exact h.trans (h.goodReport s id) <| h.trans (h.confirmIfWaiting _ id) <|
          h.trans (h.update _ id _) (h.selectCommitted _ id)
      | crcBad => exact h.failedReport s id _
      | missed => exact h.failedReport s id _
    · exact h.refl s

theorem countKeepalive (select : Bool) (s : State) (id : Nat) (o : BurstOutcome) (snr : Int) :
    R s (State.countKeepalive select s id o snr) := by
  simp only [State.countKeepalive]
  split
  · exact h.trans (h.update s id _) (h.trans (h.update _ id _) (h.update _ id _))
  · refine h.trans (h.countFailure s id o) ?_
    split
    · exact h.update _ id _
    · exact h.refl _

/-! ### Ranging and polls -/

theorem ranged (s : State) (id : Nat) : R s (s.ranged id) :=
  h.withRecord fun r _ => by
    refine h.trans (h.update s id (rangedRecord s.lm.profiles)) ?_
    split
    · exact h.trans (h.update _ id _) (h.notify _ _ _ _)
    · exact h.trans (h.update _ id _) (h.setWaitList _ _)

theorem attempt (s : State) (id : Nat) (message : Option Message) : R s (s.attempt id message) :=
  h.withRecord fun r _ => by
    split
    · exact h.update s id _
    · exact h.marker.lose s _ _

theorem measure (s : State) (id : Nat) (m : Measurement) : R s (s.measure id m) := by
  simp only [State.measure]
  split
  · refine h.trans (h.update s id (measuredRecord s.params.snrShift m)) ?_
    split
    · exact h.ranged _ id
    · exact h.attempt _ id _
  · exact h.attempt s id _

theorem firstMeasurement (s : State) (id : Nat) (m : Measurement) : R s (s.firstMeasurement id m) :=
  h.trans (h.update s id _) (h.measure _ id m)

theorem contentionListed (s : State) (id : Nat) (m : Measurement) : R s (s.contentionListed id m) :=
  h.withRecord fun r _ => by
    have rebooted := h.trans (h.marker.lose s .rebooted id) (h.firstMeasurement _ id m)
    cases hr : r.state with
    | held => exact h.refl s
    | lost => exact h.trans (h.update s id _) (h.firstMeasurement _ id m)
    | polling => exact h.trans (h.update s id _) (h.firstMeasurement _ id m)
    | ranging => exact h.trans (h.update s id _) (h.measure _ id m)
    | admitWait => exact rebooted
    | confirming => exact rebooted
    | inService => exact rebooted
    | fading => exact rebooted
    | shed => exact rebooted

theorem judgePolling (s : State) (id : Nat) (m : Measurement) : R s (s.judgePolling id m) := by
  simp only [State.judgePolling]
  split
  · exact h.trans (h.update s id _) (h.firstMeasurement _ id m)
  · exact h.update s id _
  · exact h.update s id _

theorem judgePoll (select : Bool) (s : State) (id : Nat) (m : Measurement) : R s (State.judgePoll select s id m) := by
  simp only [State.judgePoll]
  split
  · exact h.judgePolling s id m
  · exact h.measure s id m
  · exact h.trans (h.update s id _) (h.countKeepalive select _ id _ _)
  · exact h.refl s

theorem pollReport (select : Bool) (s : State) (id : Nat) (frame : FrameNumber) (m : Measurement) :
    R s (State.pollReport select s id frame m) :=
  h.withRecord fun r _ => by
    split
    · exact h.trans (h.update s id _) (h.judgePoll select _ id m)
    · exact h.refl s

theorem endPoll (select : Bool) (n : FrameNumber) (s : State) (id : Nat) : R s (State.endPoll select n s id) :=
  h.withRecord fun r _ => by
    split
    · exact h.refl s
    · split
      · exact h.trans (h.update s id _) (h.judgePoll select _ id _)
      · exact h.refl s

theorem endFrame (select : Bool) (s : State) (n : FrameNumber) : R s (State.endFrame select s n) :=
  h.marker.foldl (h.endPoll select n) _ s

end EngineClosed

/-! ## Outstanding polls and AC's figures -/

/-- A change of one record that places no poll leaves none outstanding where none may be (R91). -/
theorem State.pollsSound_update {s : State} (h : s.pollsSound) (id : Nat) {f : Record → Record}
    (hf : ∀ r, r.outstanding = none → (f r).outstanding = none) : (s.update id f).pollsSound := fun hm e he => by
  obtain ⟨e', he', rfl⟩ := List.mem_map.1 he
  split
  · exact hf _ (h hm e' he')
  · exact h hm e' he'

theorem State.pollsSound_updateAll {s : State} (h : s.pollsSound) {f : Nat → Record → Record}
    (hf : ∀ id r, r.outstanding = none → (f id r).outstanding = none) : (s.updateAll f).pollsSound := fun hm e he => by
  obtain ⟨e', he', rfl⟩ := List.mem_map.1 he
  exact hf _ _ (h hm e' he')

/-- A marker's operations on records place no poll (R91). -/
theorem markerClosed_pollsSound : MarkerClosed fun s t => s.pollsSound → t.pollsSound :=
  { refl := fun _ hs => hs, trans := fun h₁ h₂ hs => h₂ (h₁ hs)
    notify := fun s kind id values hs => by simpa only [State.pollsSound, State.notify_mode, State.notify_tt] using hs
    setSum := fun _ _ hs => hs, setWaitList := fun _ _ hs => hs, noteShed := fun _ _ hs => hs, noteLost := fun _ _ hs => hs
    update := fun _ id _ hf hs => State.pollsSound_update hs id hf.outstanding
    updateAll := fun _ _ hf hs => State.pollsSound_updateAll hs fun id => (hf id).outstanding }

/-- AC's figures: its tables, levels, storm, banks and B_eff, all but the sum, the wait list and the note. -/
def Ac.figures (ac : Ac) : Ac := { ac with committedSum := 0, waitList := [], shedNote := [] }

/-- Operations on records leave AC's figures alone. -/
theorem engineClosed_figures : EngineClosed fun s t => t.ac.figures = s.ac.figures :=
  { refl := fun _ => rfl, trans := fun h₁ h₂ => h₂.trans h₁
    notify := fun s kind id values => by rw [State.notify_ac]
    setSum := fun _ _ => rfl, setWaitList := fun _ _ => rfl, noteShed := fun _ _ => rfl, noteLost := fun _ _ => rfl
    update := fun _ _ _ => rfl, updateAll := fun _ _ => rfl }

end Sys2Proof.Machine
end

section
/-! The Insertion Queue's places and the Notice Queue's bound: what leaves the queues alone, what takes or gives up a place, and
the step (R5, R7, R165, R176). -/

namespace Sys2Proof.Machine

open Sys2Proof

/-! ## What leaves the queues alone -/

/-- `t` has the Insertion Queue, the ports and the command in flight of `s`, and its notices are within their bound where those
of `s` are. -/
structure State.QueuesUntouched (s t : State) : Prop where
  insertion : t.insertion = s.insertion
  paths : t.paths = s.paths
  inFlight : t.mu.inFlight = s.mu.inFlight
  notices : s.noticesSound → t.noticesSound

namespace State.QueuesUntouched

theorem same (s : State) : s.QueuesUntouched s := ⟨rfl, rfl, rfl, id⟩

theorem trans {s t u : State} (h₁ : s.QueuesUntouched t) (h₂ : t.QueuesUntouched u) : s.QueuesUntouched u :=
  ⟨h₂.insertion.trans h₁.insertion, h₂.paths.trans h₁.paths, h₂.inFlight.trans h₁.inFlight, fun h => h₂.notices (h₁.notices h)⟩

theorem notify (s : State) (kind : NoticeKind) (id : Option Nat) (values : List Int) :
    s.QueuesUntouched (s.notify kind id values) :=
  ⟨by simp, by simp, by simp, fun hs => State.notify_noticesSound hs kind id values⟩

/-- Operations on records leave the queues alone, but for the notices they tell of. -/
theorem engine : EngineClosed State.QueuesUntouched :=
  { refl := same, trans := trans, notify := notify
    setSum := fun _ _ => ⟨rfl, rfl, rfl, id⟩, setWaitList := fun _ _ => ⟨rfl, rfl, rfl, id⟩
    noteShed := fun _ _ => ⟨rfl, rfl, rfl, id⟩, noteLost := fun _ _ => ⟨rfl, rfl, rfl, id⟩
    update := fun _ _ _ => ⟨rfl, rfl, rfl, id⟩, updateAll := fun _ _ => ⟨rfl, rfl, rfl, id⟩ }

/-- A change that reaches none of the four. -/
theorem of_eq {s t : State} (hi : t.insertion = s.insertion) (hp : t.paths = s.paths) (hm : t.mu = s.mu) :
    s.QueuesUntouched t :=
  ⟨hi, hp, by rw [hm], fun hs => by rw [State.noticesSound, hm]; exact hs⟩

/-- What is left alone from a state that has the same four is left alone from the state itself. -/
theorem after {s t u : State} (h : t.QueuesUntouched u) (hi : t.insertion = s.insertion) (hp : t.paths = s.paths)
    (hm : t.mu = s.mu) : s.QueuesUntouched u := (of_eq hi hp hm).trans h

/-! ### AC's figures and the marker -/

theorem applyStaged (s : State) : s.QueuesUntouched s.applyStaged := by
  simp only [State.applyStaged]
  split
  · exact same s
  · exact of_eq rfl rfl rfl

theorem countStorm (s : State) : s.QueuesUntouched s.countStorm := by
  simp only [State.countStorm]
  split
  · exact same s
  · split
    · exact (notify (s.setStorm none) _ _ _).after rfl rfl rfl
    · exact of_eq rfl rfl rfl

theorem announceBudget (s : State) : s.QueuesUntouched s.announceBudget := by
  simp only [State.announceBudget]
  split
  · exact of_eq rfl rfl rfl
  · exact (notify s.computeBudget _ _ _).after rfl rfl rfl

theorem budgetStage (s : State) : s.QueuesUntouched s.budgetStage :=
  (applyStaged s).trans <| (countStorm _).trans <|
    (announceBudget s.applyStaged.countStorm.computeRaw.holdLevel).after rfl rfl rfl

theorem runStage (rank : Nat → Nat) (s : State) (stage : MarkerStage) : s.QueuesUntouched (runStage rank s stage) := by
  by_cases hb : stage = .budget
  · subst hb; exact budgetStage s
  · exact engine.marker.runStage rank s hb

theorem markerInRun (s : State) : s.QueuesUntouched s.markerInRun :=
  have stages := engine.marker.foldl (runStage (Config.cancelRank s.raceTick))
    (interleave (Config.markerPicks s.raceTick) otStages acStages) s.countMarker
  (stages.trans (u := s.markerInRun) (of_eq rfl rfl rfl)).after rfl rfl rfl

theorem leaveRun (s : State) (m : Mode) : s.QueuesUntouched (s.leaveRun m) := of_eq rfl rfl rfl

theorem takeMarker (s : State) (frame : FrameNumber) : s.QueuesUntouched (s.takeMarker frame) := by
  simp only [State.takeMarker]
  split
  · exact of_eq rfl rfl rfl
  · exact (markerInRun (s.recordFrame frame)).after rfl rfl rfl
  · exact ((notify ((s.setMode .run).recordFrame frame) _ _ _).trans (markerInRun _)).after rfl rfl rfl

/-! ### Contention and maps -/

theorem enqueueUnlisted (s : State) (addr : Address) (frame : FrameNumber) (m : Measurement) :
    s.QueuesUntouched (s.enqueueUnlisted addr frame m) := by
  simp only [State.enqueueUnlisted]
  split
  · exact of_eq rfl rfl rfl
  · split
    · exact (notify (s.setUnlisted _) _ _ _).after rfl rfl rfl
    · split
      · exact same s
      · exact (notify (s.setOverrun true) _ _ _).after rfl rfl rfl

theorem contention (s : State) (b : Burst) : s.QueuesUntouched (s.contention b) := by
  simp only [State.contention]
  split
  · split
    · exact engine.contentionListed s _ _
    · simp only [State.screen]
      split
      · exact enqueueUnlisted s _ _ _
      · exact same s
  · exact same s

theorem reportRegion (s : State) (es : List MapEntry) : s.QueuesUntouched (s.reportRegion es) := by
  simp only [State.reportRegion]
  split
  · exact same s
  · exact (notify s _ _ _).trans (of_eq rfl rfl rfl)

/-! ### Stages of the commands that take time -/

theorem applyEntry (s : State) (e : ProvEntry) : s.QueuesUntouched (s.applyEntry e) := by
  simp only [State.applyEntry]
  split
  · exact of_eq rfl rfl rfl
  · simp only [State.reorderWaiting]
    split <;> exact of_eq rfl rfl rfl

theorem entryLevel (s : State) : s.QueuesUntouched s.entryLevel :=
  (applyStaged s).trans ((announceBudget (s.applyStaged.computeRaw.setHeld _)).after rfl rfl rfl)

theorem entryStage (s : State) (stage : Nat) : s.QueuesUntouched (s.entryStage stage) := by
  simp only [State.entryStage]
  split
  · exact of_eq rfl rfl rfl
  · exact of_eq rfl rfl rfl
  · exact entryLevel s
  · exact engine.marker.shedCheck s false
  · exact same s

theorem resetBudget (s : State) : s.QueuesUntouched s.resetBudget := (applyStaged s).trans (of_eq rfl rfl rfl)

theorem resetStep (s : State) (step : Nat) : s.QueuesUntouched (s.resetStep step) := by
  simp only [State.resetStep]
  split
  · simp only [State.resetSi]
    split <;> exact of_eq rfl rfl rfl
  · exact of_eq rfl rfl rfl
  · exact (resetBudget { s with ac := { s.ac with committedSum := 0, waitList := [], shedNote := [] } }).after rfl rfl rfl
  · exact of_eq rfl rfl rfl
  · exact of_eq rfl rfl rfl
  · exact ⟨rfl, rfl, rfl, fun _ => Nat.zero_le _⟩
  · exact same s

/-! ### Commands that complete at arrival -/

theorem onRecord {s : State} {id : Byte} {f : Nat → Record → State × Reply}
    (h : ∀ r, s.record? id.toNat = some r → s.QueuesUntouched (f id.toNat r).1) : s.QueuesUntouched (s.onRecord id f).1 := by
  simp only [State.onRecord]
  split
  · exact same s
  · split
    · exact same s
    · next r hr => exact h r hr

theorem holdReentry (s : State) (id : Nat) (r : Record) : s.QueuesUntouched (s.holdReentry id r) := by
  simp only [State.holdReentry]
  split <;> exact (notify _ _ _ _).after rfl rfl rfl

theorem holdService (s : State) (id : Nat) (r : Record) : s.QueuesUntouched (s.holdService id r) := by
  simp only [State.holdService]
  split <;> split <;> exact (notify _ _ _ _).after rfl rfl rfl

theorem holdCommand (s : State) (id : Byte) : s.QueuesUntouched (s.holdCommand id).1 := onRecord fun r _ => by
  split
  · exact same s
  · exact of_eq rfl rfl rfl
  all_goals first
    | exact holdReentry s _ r
    | exact holdService s _ r

theorem unloadCommand (s : State) (id : Byte) : s.QueuesUntouched (s.unloadCommand id).1 := onRecord fun r _ => by
  split
  · exact same s
  · simp only [State.removeRecord]
    split <;> exact of_eq rfl rfl rfl

theorem releaseCommand (s : State) (id : Byte) : s.QueuesUntouched (s.releaseCommand id).1 := onRecord fun r _ => by
  split
  · exact of_eq rfl rfl rfl
  · split
    · exact of_eq rfl rfl rfl
    · exact same s

theorem forceLossCommand (s : State) (id : Byte) : s.QueuesUntouched (s.forceLossCommand id).1 := by
  simp only [State.forceLossCommand]
  split
  · exact same s
  · refine onRecord fun r _ => ?_
    split
    · exact same s
    · exact engine.marker.lose s _ _

theorem cancelReentryCommand (s : State) (id : Byte) : s.QueuesUntouched (s.cancelReentryCommand id).1 := by
  simp only [State.cancelReentryCommand]
  split
  · exact same s
  · exact onRecord fun r _ => of_eq rfl rfl rfl

theorem loadBudgetCommand (s : State) (banks : List Half) : s.QueuesUntouched (s.loadBudgetCommand banks).1 := by
  simp only [State.loadBudgetCommand]
  split <;> exact of_eq rfl rfl rfl

theorem loadLevelTableCommand (s : State) (ths : List Half) (levelHold : Byte) :
    s.QueuesUntouched (s.loadLevelTableCommand ths levelHold).1 := by
  simp only [State.loadLevelTableCommand]
  split_ifs <;> exact of_eq rfl rfl rfl

theorem loadFiltersCommand (s : State) (a b r : FilterWire) : s.QueuesUntouched (s.loadFiltersCommand a b r).1 := by
  simp only [State.loadFiltersCommand]
  split
  · exact same s
  · split <;> exact of_eq rfl rfl rfl

theorem loadSectorParametersCommand (s : State) (values : List Half) :
    s.QueuesUntouched (s.loadSectorParametersCommand values).1 := by
  simp only [State.loadSectorParametersCommand]
  split
  · exact same s
  · split <;> exact of_eq rfl rfl rfl

theorem stormCommand (s : State) (level : Byte) : s.QueuesUntouched (s.stormCommand level).1 := by
  simp only [State.stormCommand]
  split <;> exact of_eq rfl rfl rfl

theorem unlistedReadCommand (s : State) : s.QueuesUntouched s.unlistedReadCommand.1 := by
  simp only [State.unlistedReadCommand]
  split <;> exact same s

theorem unlistedReleaseCommand (s : State) : s.QueuesUntouched s.unlistedReleaseCommand.1 := by
  simp only [State.unlistedReleaseCommand]
  split <;> exact of_eq rfl rfl rfl

theorem readSectorCommand (s : State) (acknowledge : Byte) : s.QueuesUntouched (s.readSectorCommand acknowledge).1 := by
  simp only [State.readSectorCommand]
  split <;> exact of_eq rfl rfl rfl

theorem setNoticeMaskCommand (s : State) (enables : List Byte) :
    s.QueuesUntouched (s.setNoticeMaskCommand enables).1 := by
  simp only [State.setNoticeMaskCommand]
  split
  · exact ⟨rfl, rfl, rfl, id⟩
  · exact same s

end State.QueuesUntouched

/-! ## Places taken and given up -/

/-- The two queues are within their bounds, and the reserved places are those owed. -/
def State.queuesSound (s : State) : Prop := s.insertionSound ∧ s.noticesSound

/-- The queues while a cell is in MU's hands: one more place is reserved than the state shows as owed (R7). -/
def State.cellSound (s : State) : Prop :=
  s.insertion.cells.length + s.insertion.reserved ≤ Config.insertionPlaces ∧ s.insertion.reserved = s.owedPlaces + 1 ∧
    s.noticesSound

section
variable {s t : State}

theorem State.owedPlaces_congr (hp : t.paths.header = s.paths.header) (hf : t.mu.inFlight = s.mu.inFlight) :
    t.owedPlaces = s.owedPlaces := by
  simp only [State.owedPlaces, hp, hf]

theorem State.owedPlaces_of_inFlight (hf : s.mu.inFlight.isSome) : s.owedPlaces = (s.setInFlight none).owedPlaces + 1 := by
  rw [State.owedPlaces, if_pos hf]
  rfl

theorem State.owedPlaces_setInFlight (c : InFlight) :
    (s.setInFlight (some c)).owedPlaces = (s.setInFlight none).owedPlaces + 1 := State.owedPlaces_of_inFlight rfl

theorem State.owedPlaces_of_idle (hf : s.mu.inFlight = none) : (s.setInFlight none).owedPlaces = s.owedPlaces :=
  State.owedPlaces_congr rfl hf.symm

theorem State.owedPlaces_of_reserved (hh : s.paths.header = .reserved) :
    s.owedPlaces = (s.setHeader .none).owedPlaces + 1 := by
  have cell : (s.setHeader .none).owedPlaces = 0 + if s.mu.inFlight.isSome then 1 else 0 := rfl
  rw [cell, State.owedPlaces, if_pos hh]
  omega

theorem State.owedPlaces_setHeader_reserved (hh : s.paths.header ≠ .reserved) :
    (s.setHeader .reserved).owedPlaces = s.owedPlaces + 1 := by
  rw [State.owedPlaces_of_reserved (s := s.setHeader .reserved) rfl]
  simp only [State.owedPlaces, if_neg hh]
  rfl

theorem State.owedPlaces_setHeader_waiting (hh : s.paths.header ≠ .reserved) :
    (s.setHeader .waiting).owedPlaces = s.owedPlaces := by
  simp only [State.owedPlaces, if_neg hh]
  rfl

end

namespace State.queuesSound

variable {s t : State}

theorem intro (places : s.insertion.cells.length + s.insertion.reserved ≤ Config.insertionPlaces)
    (owed : s.insertion.reserved = s.owedPlaces) (notices : s.noticesSound) : s.queuesSound := ⟨⟨places, owed⟩, notices⟩

theorem untouched (hs : s.queuesSound) (h : s.QueuesUntouched t) : t.queuesSound := by
  refine ⟨?_, h.notices hs.2⟩
  rw [State.insertionSound, h.insertion, State.owedPlaces_congr (by rw [h.paths]) h.inFlight]
  exact hs.1

/-- The command in flight moves on. -/
theorem setInFlight (hs : s.queuesSound) (hf : s.mu.inFlight.isSome) (c : InFlight) :
    (s.setInFlight (some c)).queuesSound := by
  obtain ⟨⟨places, owed⟩, notices⟩ := hs
  rw [State.owedPlaces_of_inFlight hf] at owed
  exact intro places (owed.trans (State.owedPlaces_setInFlight c).symm) notices

/-- The command in flight ends: its response takes the place reserved for it (R165). -/
theorem complete (hs : s.queuesSound) (hf : s.mu.inFlight.isSome) (tag code : Byte) (r : Reply) :
    (s.complete tag code r).queuesSound := by
  obtain ⟨⟨places, owed⟩, notices⟩ := hs
  rw [State.owedPlaces_of_inFlight hf] at owed
  have owed' : (s.complete tag code r).owedPlaces = (s.setInFlight none).owedPlaces := State.owedPlaces_congr rfl rfl
  refine intro ?_ ?_ notices
  · simp only [State.complete, State.reply_insertion, List.length_append, List.length_singleton, State.setInFlight_insertion]
    omega
  · rw [owed']
    simp only [State.complete, State.reply_insertion, State.setInFlight_insertion]
    omega

/-- A header taken with its place reserved (R7). -/
theorem reserve (hh : s.paths.header ≠ .reserved) (hp : 0 < s.freePlaces) (hs : s.queuesSound) :
    (s.reservePlace.setHeader .reserved).queuesSound := by
  obtain ⟨⟨places, owed⟩, notices⟩ := hs
  have owed' : (s.reservePlace.setHeader .reserved).owedPlaces = s.owedPlaces + 1 := State.owedPlaces_setHeader_reserved hh
  simp only [State.freePlaces] at hp
  refine intro ?_ ?_ notices
  · simp only [State.setHeader_insertion, State.reservePlace_insertion]
    omega
  · simp only [owed', State.setHeader_insertion, State.reservePlace_insertion, owed]

/-- A cell whose header was taken is MU's. -/
theorem takeCell (hh : s.paths.header = .reserved) (hs : s.queuesSound) : (s.setHeader .none).cellSound := by
  obtain ⟨⟨places, owed⟩, notices⟩ := hs
  exact ⟨places, owed.trans (State.owedPlaces_of_reserved hh), notices⟩

end State.queuesSound

namespace State.cellSound

variable {s t : State}

theorem untouched (hs : s.cellSound) (h : s.QueuesUntouched t) : t.cellSound := by
  refine ⟨?_, ?_, h.notices hs.2.2⟩
  · rw [h.insertion]; exact hs.1
  · rw [h.insertion, State.owedPlaces_congr (by rw [h.paths]) h.inFlight]; exact hs.2.1

/-- The cell is answered in its place. -/
theorem reply (hs : s.cellSound) (tag code : Byte) (r : Reply) : (s.reply tag code r).queuesSound := by
  obtain ⟨places, owed, notices⟩ := hs
  have owed' : (s.reply tag code r).owedPlaces = s.owedPlaces := State.owedPlaces_congr rfl rfl
  refine .intro ?_ ?_ notices
  · simp only [State.reply_insertion, List.length_append, List.length_singleton]
    omega
  · simp only [State.reply_insertion, owed']
    omega

/-- The cell is discarded and its place released. -/
theorem releasePlace (hs : s.cellSound) : s.releasePlace.queuesSound := by
  obtain ⟨places, owed, notices⟩ := hs
  have owed' : s.releasePlace.owedPlaces = s.owedPlaces := State.owedPlaces_congr rfl rfl
  refine .intro ?_ ?_ notices
  · simp only [State.releasePlace_insertion]
    omega
  · simp only [State.releasePlace_insertion, owed']
    omega

/-- The cell's command takes time: its place stays reserved. -/
theorem setInFlight (hs : s.cellSound) (hf : s.mu.inFlight = none) (c : InFlight) :
    (s.setInFlight (some c)).queuesSound := by
  obtain ⟨places, owed, notices⟩ := hs
  rw [← State.owedPlaces_of_idle hf] at owed
  exact .intro places (owed.trans (State.owedPlaces_setInFlight c).symm) notices

/-- The command in flight is answered while the cell is in MU's hands. -/
theorem complete (hs : s.cellSound) (hf : s.mu.inFlight.isSome) (tag code : Byte) (r : Reply) :
    (s.complete tag code r).cellSound := by
  obtain ⟨places, owed, notices⟩ := hs
  rw [State.owedPlaces_of_inFlight hf] at owed
  have owed' : (s.complete tag code r).owedPlaces = (s.setInFlight none).owedPlaces := State.owedPlaces_congr rfl rfl
  refine ⟨?_, ?_, notices⟩
  · simp only [State.complete, State.reply_insertion, List.length_append, List.length_singleton, State.setInFlight_insertion]
    omega
  · rw [owed']
    simp only [State.complete, State.reply_insertion, State.setInFlight_insertion]
    omega

/-! ### The command of a cell -/

/-- A SECTOR_RESET first ends the command in flight; none is in flight then (R167, R169). -/
theorem abortInFlight (hs : s.cellSound) (hn : ∀ tag k, s.mu.inFlight ≠ some (.sectorReset tag k)) :
    s.abortInFlight.cellSound ∧ s.abortInFlight.mu.inFlight = none := by
  simp only [State.abortInFlight]
  split
  · next hf => exact ⟨hs.complete (by simp [hf]) _ _ _, rfl⟩
  · next tag t k hf =>
    exact ⟨(hs.untouched (.of_eq rfl rfl rfl)).complete (s := s.installProfiles t k)
      (by simp [State.installProfiles, hf]) _ _ _, rfl⟩
  · next hf => exact ⟨hs.complete (by simp [hf]) _ _ _, rfl⟩
  · next h₁ h₂ h₃ =>
    refine ⟨hs, ?_⟩
    rcases hf : s.mu.inFlight with _ | c
    · rfl
    · cases c with
      | loadTerminals => exact absurd hf (h₁ _ _ _)
      | loadProfiles => exact absurd hf (h₂ _ _ _)
      | runEntry => exact absurd hf (h₃ _ _)
      | sectorReset => exact absurd hf (hn _ _)

end State.cellSound

/-- The next step of a sector reset keeps the queues sound (R172, R176). -/
theorem State.queuesSound.nextResetStep {s : State} (hs : s.queuesSound) : s.nextResetStep.queuesSound := by
  unfold State.nextResetStep
  split
  · next tag k hf =>
    split
    · exact hs.complete (by simp [hf]) _ _ _
    · have same := State.QueuesUntouched.resetStep s (k + 1)
      exact (hs.untouched same).setInFlight (by rw [same.inFlight, hf]; rfl) _
  · exact hs

/-- What carrying out a command makes of the queues: answered at once, or in flight. -/
theorem State.cellSound.carryOut {s : State} (hs : s.cellSound) (tag : Byte) (c : Command)
    (hf : s.mu.inFlight = none ∨ ∃ through, c = .sectorReset through) : (s.carryOut tag c).queuesSound := by
  have atArrival {x : State × Reply} (hx : s.QueuesUntouched x.1) :
      (match Machine.atArrival x with
        | (s, some r) => s.reply tag c.code r
        | (s, none) => s).queuesSound := (hs.untouched hx).reply tag c.code x.2
  simp only [State.carryOut]
  cases c with
  | sectorReset through =>
    simp only [State.perform, State.sectorResetCommand]
    split
    next u r hu =>
      split at hu
      · cases hu; exact hs.reply _ _ _
      · cases hu
    next u hu =>
      split at hu
      · cases hu
      · next hn =>
        cases hu
        obtain ⟨sound, idle⟩ := hs.abortInFlight fun tag k hk => hn tag k hk
        exact repeatOp_kept (fun _ h => h.nextResetStep) _ (sound.setInFlight idle _)
  | setMode v =>
    have idle := hf.resolve_right (by simp)
    simp only [State.perform, State.setModeCommand]
    split
    next u r hu =>
      split at hu
      · cases hu; exact hs.reply _ _ _
      · cases hu; exact (hs.untouched (.leaveRun s _)).reply _ _ _
      · cases hu; exact (hs.untouched (.of_eq rfl rfl rfl)).reply _ _ _
      · cases hu
      · cases hu; exact hs.reply _ _ _
      · cases hu; exact hs.reply _ _ _
      · cases hu; exact hs.reply _ _ _
    next u hu =>
      split at hu
      case h_4 => cases hu; exact hs.setInFlight idle _
      all_goals cases hu
  | loadTerminals es => exact hs.setInFlight (hf.resolve_right (by simp)) _
  | loadProfiles t =>
    have idle := hf.resolve_right (by simp)
    simp only [State.perform, State.loadProfilesCommand]
    split
    next u r hu =>
      split at hu
      · cases hu; exact hs.reply _ _ _
      · split at hu
        · cases hu; exact hs.reply _ _ _
        · cases hu
    next u hu =>
      split at hu
      · cases hu
      · split at hu
        · cases hu
        · cases hu; exact hs.setInFlight idle _
  | unload id => exact atArrival (.unloadCommand s id)
  | readTerminal id => exact atArrival (.onRecord fun _ _ => .same s)
  | hold id => exact atArrival (.holdCommand s id)
  | release id => exact atArrival (.releaseCommand s id)
  | forceLoss id => exact atArrival (.forceLossCommand s id)
  | cancelReentry id => exact atArrival (.cancelReentryCommand s id)
  | loadBudget b => exact atArrival (.loadBudgetCommand s b)
  | loadLevelTable ths h => exact atArrival (.loadLevelTableCommand s ths h)
  | loadFilters a b r => exact atArrival (.loadFiltersCommand s a b r)
  | loadSectorParameters v => exact atArrival (.loadSectorParametersCommand s v)
  | storm l => exact atArrival (.stormCommand s l)
  | unlistedRead => exact atArrival (.unlistedReadCommand s)
  | unlistedRelease => exact atArrival (.unlistedReleaseCommand s)
  | unlistedClearOverrun => exact atArrival (.of_eq rfl rfl rfl)
  | readSector a => exact atArrival (.readSectorCommand s a)
  | setNoticeMask m => exact atArrival (.setNoticeMaskCommand s m)

end Sys2Proof.Machine
end

section
/-! The queues' step: the cells of each kind, then one field of `State.KeptByParts` after another. -/

namespace Sys2Proof.Machine

open Sys2Proof

/-- Only SECTOR_RESET meets no BUSY while a command is in flight (R163, R167). -/
theorem State.busyFor_eq_false {s : State} {code : Byte} (h : s.busyFor code = false) :
    s.mu.inFlight = none ∨ code = 0x14 := by
  simp only [State.busyFor, Bool.and_eq_false_iff, Option.isSome_eq_false_iff, Option.isNone_iff_eq_none] at h
  exact h.imp_right (by simp)

theorem Command.eq_sectorReset_of_code {c : Command} (h : c.code = 0x14) : ∃ through, c = .sectorReset through := by
  cases c
  case sectorReset through => exact ⟨through, rfl⟩
  all_goals simp [Command.code] at h

/-- A cell of SECTOR_RESET's code carries that command or none (12.4). -/
theorem readCommand_sectorReset {params : List Byte} {c : Command} (h : readCommand 0x14 params = .command c) :
    c = .sectorReset 7 := by
  have read : readCommand 0x14 params = noByte params (.sectorReset 7) := rfl
  rw [read] at h
  cases params with
  | nil => cases h; rfl
  | cons => cases h

theorem State.cellSound.takeCommand {s : State} (hs : s.cellSound) (tag : Byte) (c : Command) :
    (s.takeCommand tag c).queuesSound := by
  simp only [State.takeCommand]
  split
  · exact hs.reply _ _ _
  · next hb =>
    split
    · exact hs.reply _ _ _
    · exact hs.carryOut tag c ((State.busyFor_eq_false (by simpa using hb)).imp_right Command.eq_sectorReset_of_code)

theorem State.cellSound.takeCell {s : State} (hs : s.cellSound) (payload : List Byte) :
    (s.takeCell payload).queuesSound := by
  simp only [State.takeCell]
  split
  · next code tag params =>
    split
    · exact hs.reply _ _ _
    · next hb =>
      split
      · exact hs.reply _ _ _
      · exact hs.reply _ _ _
      · next c hc =>
        refine hs.carryOut tag c ((State.busyFor_eq_false (by simpa using hb)).imp_right fun h => ?_)
        exact ⟨7, readCommand_sectorReset (h ▸ hc)⟩
  · exact hs.releasePlace

namespace State.queuesSound

variable {s : State}

theorem powerOn (s : State) : s.powerOn.queuesSound := ⟨⟨Nat.zero_le _, rfl⟩, Nat.zero_le _⟩

/-- What reaches neither queue, the header nor the command in flight. -/
theorem congr {t : State} (hs : s.queuesSound) (hi : t.insertion = s.insertion) (hh : t.paths.header = s.paths.header)
    (hm : t.mu = s.mu) : t.queuesSound := by
  refine ⟨?_, by rw [State.noticesSound, hm]; exact hs.2⟩
  rw [State.insertionSound, hi, State.owedPlaces_congr hh (by rw [hm])]
  exact hs.1

theorem discard (hh : s.paths.header = .reserved) (hs : s.queuesSound) : ((s.setHeader .none).releasePlace).queuesSound :=
  (hs.takeCell hh).releasePlace

theorem wait (hh : s.paths.header ≠ .reserved) (hs : s.queuesSound) : (s.setHeader .waiting).queuesSound :=
  intro hs.1.1 (hs.1.2.trans (State.owedPlaces_setHeader_waiting hh).symm) hs.2

/-- At the fall of RESET_N the header's place is released with it. -/
theorem resetFalls (hs : s.queuesSound) : s.resetFalls.queuesSound := by
  have cut : s.cutHeader.queuesSound ∧ s.cutHeader.paths.header ≠ .reserved := by
    simp only [State.cutHeader]
    split
    · next hr => exact ⟨hs.discard hr, by simp⟩
    · next hr => exact ⟨hs, hr⟩
  have owed : s.resetFalls.owedPlaces = s.cutHeader.owedPlaces := by
    simp only [State.owedPlaces, if_neg cut.2]
    rfl
  exact intro cut.1.1.1 (cut.1.1.2.trans owed.symm) cut.1.2

/-- An emission moves no more notices than there are free places (R179). -/
theorem emission (hs : s.queuesSound) : s.settleEmission.queuesSound := by
  rcases hd : s.paths.emissionDue with _ | e
  · rwa [State.settleEmission_of_none hd]
  · rw [State.settleEmission_of_some hd]
    obtain ⟨⟨places, owed⟩, notices⟩ := hs
    refine intro ?_ owed ?_
    · have free : s.emissionCount e ≤ s.freePlaces := (Nat.min_le_right _ _).trans (Nat.min_le_right _ _)
      have moved : ((s.mu.notices.take (s.emissionCount e)).map PartCell.notice).length ≤ s.emissionCount e := by
        simp
      simp only [State.freePlaces] at free
      change (s.insertion.cells ++ (s.mu.notices.take (s.emissionCount e)).map PartCell.notice).length + s.insertion.reserved ≤ _
      rw [List.length_append]
      omega
    · exact (List.drop_sublist _ _).length_le.trans notices

theorem sent {cell : PartCell} {rest : List PartCell} (hc : s.insertion.cells = cell :: rest) (hs : s.queuesSound) :
    State.queuesSound { s with insertion := { s.insertion with cells := rest } } := by
  obtain ⟨⟨places, owed⟩, notices⟩ := hs
  refine intro ?_ owed notices
  rw [hc, List.length_cons] at places
  change rest.length + s.insertion.reserved ≤ _
  omega

/-! ### The commands that take time -/

theorem nextEntryStage (last : Nat) (hs : s.queuesSound) : (State.nextEntryStage last s).queuesSound := by
  unfold State.nextEntryStage
  split
  · next tag stage hf =>
    split
    · exact hs
    · split
      · have run : State.queuesSound { s with si := { s.si with mode := .run, watchdog := some s.params.watchdogTime } } :=
          hs.congr rfl rfl rfl
        exact run.complete (by rw [hf]; rfl) _ _ _
      · have same := State.QueuesUntouched.entryStage s (stage + 1)
        exact (hs.untouched same).setInFlight (by rw [same.inFlight, hf]; rfl) _
  · exact hs

theorem nextEntry (hs : s.queuesSound) : s.nextEntry.queuesSound := by
  unfold State.nextEntry
  split
  · next tag es applied hf =>
    split
    · exact hs
    · next e _ =>
      split
      · exact hs.complete (by rw [hf]; rfl) _ _ _
      · have same := State.QueuesUntouched.applyEntry s e
        have flying : (s.applyEntry e).mu.inFlight.isSome := by rw [same.inFlight, hf]; rfl
        dsimp only
        split
        · exact (hs.untouched same).complete flying _ _ _
        · exact (hs.untouched same).setInFlight flying _
  · exact hs

theorem reclampAll (hs : s.queuesSound) : s.reclampAll.queuesSound := by
  unfold State.reclampAll
  split
  · next tag t k hf =>
    have same : s.QueuesUntouched (s.installProfiles t k) := .of_eq rfl rfl rfl
    exact (hs.untouched same).complete (by rw [same.inFlight, hf]; rfl) _ _ _
  · exact hs

/-! ### Expiries -/

theorem ifEnds {t : State} (hs : s.queuesSound) (h : s.QueuesUntouched t) (ends : Bool) : (s.ifEnds ends t).queuesSound := by
  simp only [State.ifEnds]
  split
  · exact hs.untouched h
  · exact hs

/-- The visit of a record at which a countdown may end. -/
theorem visit {id : Nat} {ends : Record → Bool} {t : Record → State} (hs : s.queuesSound)
    (h : ∀ r, s.QueuesUntouched (t r)) : (s.withRecord id fun r => s.ifEnds (ends r) (t r)).queuesSound := by
  simp only [State.withRecord]
  split
  · exact hs.ifEnds (h _) _
  · exact hs

theorem watchdogExpires (hs : s.queuesSound) : s.watchdogExpires.queuesSound := by
  simp only [State.watchdogExpires]
  split
  · exact hs.untouched (((State.QueuesUntouched.leaveRun s .coasting).trans (.notify _ _ _ _)).trans (.of_eq rfl rfl rfl))
  · exact hs

/-- What each part of a step makes of the queues. -/
theorem keptByParts : State.KeptByParts State.queuesSound where
  queue _ hs := hs.congr rfl rfl rfl
  race hs := hs.congr rfl rfl rfl
  ports _ hh _ hs := hs.congr rfl hh rfl
  powerOn _ := powerOn _
  resetFalls := resetFalls
  reserve := reserve
  wait := wait
  discard := discard
  cell payload hh hs := (hs.takeCell hh).takeCell payload
  command tag c hh hs := (hs.takeCell hh).takeCommand tag c
  marker frame hs := hs.untouched (.takeMarker _ frame)
  malformed _ _ hs := hs.untouched ((State.QueuesUntouched.notify _ _ _ _).trans (.of_eq rfl rfl rfl))
  edited es _ _ _ _ _ hs :=
    hs.untouched ((State.QueuesUntouched.reportRegion _ es).trans (.of_eq rfl rfl rfl))
  emitted _ _ hs := hs.congr rfl rfl rfl
  grantReport id o snr _ hs := hs.untouched (State.QueuesUntouched.engine.grantReport _ id o snr)
  pollReport select id frame m _ hs := hs.untouched (State.QueuesUntouched.engine.pollReport select _ id frame m)
  contention b _ hs := hs.untouched (.contention _ b)
  endFrame select frame _ hs := hs.untouched (State.QueuesUntouched.engine.endFrame select _ frame)
  emission := emission
  sent := sent
  cleared _ hs := hs.congr rfl rfl rfl
  watchdog := watchdogExpires
  entryStage := nextEntryStage
  entry := nextEntry
  reclamp := reclampAll
  holdOff _ hs := hs.visit fun _ => .of_eq rfl rfl rfl
  probation _ hs := hs.visit fun _ => .of_eq rfl rfl rfl
  confirmTimer id hs := hs.visit fun _ => State.QueuesUntouched.engine.marker.confirmVisit _ id
  storm hs := hs.ifEnds (.countStorm _) _
  levelHold hs := hs.ifEnds (t := State.holdLevel _) (.of_eq rfl rfl rfl) _
  resetStep := nextResetStep

end State.queuesSound

/-- Settles O55: the queues are sound together, and every part of a step keeps them so. -/
theorem queuesKeptByEveryStep : Obligations.QueuesKeptByEveryStep :=
  fun _ _ hi hn he => State.queuesSound.keptByParts.step ⟨hi, hn⟩ he

end Sys2Proof.Machine
end

section
/-! One record within its ranges (R19) and consistent (R21, R39, R61): each change the part makes of a record keeps it so. -/

namespace Sys2Proof.Machine

open Sys2Proof

/-- A record within the ranges of R19 that keeps what R21, R39 and R61 say beside them: `recordInRange` and
`recordConsistent`, field by field. -/
structure RecordSound (r : Record) : Prop where
  addr : r.addr ≠ 0
  load : r.load ≤ 4095
  ceiling : r.ceiling ≤ 7
  fade : r.fade ≤ 255
  avg : ∀ a ∈ r.avg, -640 ≤ a ∧ a ≤ 2560
  profile : r.profile ≤ 7
  holdOff : r.holdOff ≤ 4095
  backoff : r.backoff ≤ 6
  probation : r.probation ≤ 65535
  misses : r.misses ≤ 255
  attempts : r.attempts ≤ 63
  timing : -2048 ≤ r.lastTiming ∧ r.lastTiming ≤ 2047
  power : -128 ≤ r.lastPower ∧ r.lastPower ≤ 127
  cost : r.cost ≤ 2047
  confirmTimer : ∀ n ∈ r.confirmTimer, n ≤ 255
  admitTries : r.admitTries ≤ 7
  lastOutage : r.lastOutage ≤ 65535
  inService : r.state = .inService → r.fade ≤ 127
  lost : r.state ≠ .lost → r.holdOff = 0
  ranging : r.state ≠ .ranging → r.holdReq = false
  held : r.state = .held → r.message = none ∨ r.message = some .suspend
  confirming : r.state ≠ .confirming → r.confirmTimer = none ∧ r.message ≠ some .admitMsg

theorem recordSound_iff (r : Record) : RecordSound r ↔ recordInRange r ∧ recordConsistent r := by
  constructor
  · rintro ⟨addr, load, ceiling, fade, avg, profile, holdOff, backoff, probation, misses, attempts, timing, power, cost,
      confirmTimer, admitTries, lastOutage, inService, lost, ranging, held, confirming⟩
    exact ⟨⟨addr, load, ceiling, fade, avg, profile, holdOff, backoff, probation, misses, attempts, timing.1, timing.2,
      power.1, power.2, cost, confirmTimer, admitTries, lastOutage⟩, inService, lost, ranging, held, confirming⟩
  · rintro ⟨⟨addr, load, ceiling, fade, avg, profile, holdOff, backoff, probation, misses, attempts, timing₁, timing₂,
      power₁, power₂, cost, confirmTimer, admitTries, lastOutage⟩, inService, lost, ranging, held, confirming⟩
    exact ⟨addr, load, ceiling, fade, avg, profile, holdOff, backoff, probation, misses, attempts, ⟨timing₁, timing₂⟩,
      ⟨power₁, power₂⟩, cost, confirmTimer, admitTries, lastOutage, inService, lost, ranging, held, confirming⟩

/-- The bounds of the sector parameters from which the bounds of a record's fields come (R171). -/
structure ParamsBound (p : Params) : Prop where
  fadeExit : p.fadeExit ≤ 127
  probationStart : p.probationStart ≤ 127
  probationLength : p.probationLength ≤ 65535
  rangingMaxAttempts : p.rangingMaxAttempts ≤ 63
  confirmTimeout : p.confirmTimeout ≤ 255
  admitTriesMax : p.admitTriesMax ≤ 7
  noticesPerReport : 1 ≤ p.noticesPerReport ∧ p.noticesPerReport ≤ 8

/-- A parameter stands in its range where the checks of R171 pass. -/
theorem mem_range_of_failingField {v : List Nat} (h : failingField v = none) :
    ∀ x ∈ v.zip paramRanges, x.2.1 ≤ x.1 ∧ x.1 ≤ x.2.2 := by
  simp only [failingField] at h
  split at h
  · cases h
  · next hn =>
    intro x hx
    have := List.findIdx?_eq_none_iff.1 hn x hx
    simpa using this

theorem paramsBound_of_sound {p : Params} (h : failingField p.values = none) : ParamsBound p := by
  have range := mem_range_of_failingField h
  simp only [Params.values, paramRanges, List.zip_cons_cons, List.zip_nil_right, List.forall_mem_cons] at range
  obtain ⟨_, fadeExit, probationStart, probationLength, _, _, _, _, _, _, _, _, _, _, _, _, _, _, _, rangingMaxAttempts,
    confirmTimeout, admitTriesMax, _, _, _, noticesPerReport, _⟩ := range
  exact ⟨fadeExit.2, probationStart.2, probationLength.2, rangingMaxAttempts.2, confirmTimeout.2, admitTriesMax.2,
    noticesPerReport⟩

/-! ## Costs and profiles -/

/-- The two figures of a Profile Table's entries that bound a cost (R47). -/
def CostsBounded (t : List ProfileEntry) : Prop := ∀ e ∈ t, 4 ≤ e.capacity ∧ e.overhead ≤ 3

theorem CostsBounded.entry {t : List ProfileEntry} (h : CostsBounded t) (p : Nat) :
    4 ≤ (profileAt t p).capacity ∧ (profileAt t p).overhead ≤ 3 := by
  simp only [profileAt, List.getD_eq_getElem?_getD]
  rcases he : t[p]? with _ | e
  · exact ⟨le_refl 4, Nat.zero_le 3⟩
  · exact h e (List.mem_of_getElem? he)

/-- A cost is at most 3 + ceil(4095 / 4). -/
theorem CostsBounded.airtimeCost_le {t : List ProfileEntry} (h : CostsBounded t) {load : Nat} (hl : load ≤ 4095) (p : Nat) :
    airtimeCost t load p ≤ 2047 := by
  obtain ⟨capacity, overhead⟩ := h.entry p
  have slots : (load + (profileAt t p).capacity - 1) / (profileAt t p).capacity < 1025 :=
    Nat.div_lt_of_lt_mul (by omega)
  simp only [airtimeCost]
  omega

theorem highestProfile_le (t : List ProfileEntry) (bound : Nat) (ok : ProfileEntry → Bool) :
    highestProfile t bound ok ≤ bound := by
  simp only [highestProfile]
  rcases hl : ((List.range (bound + 1)).filter fun p => (profileAt t p).enabled && ok (profileAt t p)).getLast? with _ | p
  · exact Nat.zero_le _
  · have := List.mem_of_getLast? hl
    simp only [List.mem_filter, List.mem_range] at this
    exact Nat.le_of_lt_succ this.1

theorem effectiveCeiling_le (t : List ProfileEntry) (r : Record) : effectiveCeiling t r ≤ r.ceiling :=
  highestProfile_le t r.ceiling _

theorem averaged_bounds (k : Nat) {avg : Option Int} (h : ∀ a ∈ avg, -640 ≤ a ∧ a ≤ 2560) (sample : Int) :
    -640 ≤ averaged k avg sample ∧ averaged k avg sample ≤ 2560 := by
  have clamped : -40 ≤ clampSnr sample ∧ clampSnr sample ≤ 160 := by
    simp only [clampSnr, clamp]
    omega
  rcases avg with _ | a
  · simp only [averaged]
    omega
  · obtain ⟨low, high⟩ := h a rfl
    have pos : (0 : Int) < 2 ^ k := by positivity
    have up : (clampSnr sample * 16 - a) / 2 ^ k ≤ max 0 (clampSnr sample * 16 - a) := by
      rcases le_total 0 (clampSnr sample * 16 - a) with hd | hd
      · exact (Int.ediv_le_self _ hd).trans (le_max_right _ _)
      · exact (Int.ediv_nonpos_of_nonpos_of_neg hd pos).trans (le_max_left _ _)
    have down : min 0 (clampSnr sample * 16 - a) ≤ (clampSnr sample * 16 - a) / 2 ^ k := by
      rcases le_total 0 (clampSnr sample * 16 - a) with hd | hd
      · exact (min_le_left _ _).trans (Int.ediv_nonneg hd pos.le)
      · refine (min_le_right _ _).trans ((Int.le_ediv_iff_mul_le pos).2 ?_)
        nlinarith [one_le_pow₀ (M₀ := Int) (one_le_two) (n := k)]
    simp only [averaged]
    omega

/-! ## States -/

theorem TState.not_reentry_of_committed {st : TState} (h : st.committed = true) :
    st ≠ .held ∧ st ≠ .lost ∧ st ≠ .ranging ∧ st.waiting = false := by
  cases st <;> simp_all [TState.committed, TState.waiting]

theorem TState.not_committed_of_waiting {st : TState} (h : st.waiting = true) :
    st ≠ .held ∧ st ≠ .lost ∧ st ≠ .ranging ∧ st.committed = false := by
  cases st <;> simp_all [TState.committed, TState.waiting]

namespace RecordSound

variable {r : Record} (h : RecordSound r)

include h

/-- A stored hold request stands in RANGING alone (R30). -/
theorem state_of_holdReq (hr : r.holdReq = true) : r.state = .ranging := by
  by_contra hs
  rw [h.ranging hs] at hr
  cases hr

theorem state_of_confirmTimer {n : Nat} (hn : r.confirmTimer = some n) : r.state = .confirming := by
  by_contra hs
  rw [(h.confirming hs).1] at hn
  cases hn

theorem state_of_admitMsg (hm : r.message = some .admitMsg) : r.state = .confirming := by
  by_contra hs
  exact (h.confirming hs).2 hm

/-! ### Losses, shedding, admission -/

theorem lostRecord (base : Nat) (now : MarkerCount) {reason : LossReason}
    (hg : r.holdReq = true → lossGrantsHold reason r = true) : RecordSound (lostRecord base now reason r) := by
  have backoff : backoffAfterLoss reason r ≤ 6 := by
    have := h.backoff
    simp only [backoffAfterLoss]
    split <;> omega
  have holdOff : holdOffAfterLoss base reason r ≤ 4095 := by
    simp only [holdOffAfterLoss, holdOffOf]
    split <;> omega
  have lost : stateAfterLoss reason r ≠ .lost → holdOffAfterLoss base reason r = 0 := by
    simp only [stateAfterLoss, holdOffAfterLoss]
    split_ifs <;> simp_all
  have granted : (r.holdReq && !lossGrantsHold reason r) = false := by
    rcases hr : r.holdReq with _ | _
    · rfl
    · simp [hg hr]
  have notService : stateAfterLoss reason r ≠ .inService := by
    simp only [stateAfterLoss]
    split_ifs <;> simp
  exact { h with
    fade := Nat.zero_le _, avg := fun a ha => (by cases ha), holdOff := holdOff, backoff := backoff, probation := Nat.zero_le _
    misses := Nat.zero_le _, attempts := Nat.zero_le _, cost := Nat.zero_le _, confirmTimer := fun n hn => (by cases hn)
    admitTries := Nat.zero_le _, inService := fun hs => absurd hs notService, lost := lost, ranging := fun _ => granted
    held := fun _ => .inl rfl, confirming := fun _ => ⟨rfl, by simp [Machine.lostRecord]⟩ }

theorem shedRecord (now : MarkerCount) (hc : r.state.committed = true) : RecordSound (shedRecord now r) := by
  obtain ⟨_, notLost, notRanging, _⟩ := TState.not_reentry_of_committed hc
  exact { h with
    cost := Nat.zero_le _, confirmTimer := fun n hn => (by cases hn), admitTries := Nat.zero_le _
    inService := fun hs => (by cases hs), lost := fun _ => h.lost notLost, ranging := fun _ => h.ranging notRanging
    held := fun hs => (by cases hs), confirming := fun _ => ⟨rfl, by simp [Machine.shedRecord]⟩ }

theorem admittedRecord {cost : Nat} (hc : cost ≤ 2047) (hw : r.state.waiting = true) :
    RecordSound (admittedRecord cost r) := by
  obtain ⟨_, notLost, notRanging, _⟩ := TState.not_committed_of_waiting hw
  exact { h with
    cost := hc, confirmTimer := fun n hn => (by cases hn), admitTries := (by simp [Machine.admittedRecord])
    inService := fun hs => (by cases hs), lost := fun _ => h.lost notLost, ranging := fun _ => h.ranging notRanging
    held := fun hs => (by cases hs), confirming := fun hs => absurd rfl hs }

theorem retriedRecord (hs : r.state = .confirming) (ht : r.admitTries + 1 ≤ 7) : RecordSound (retriedRecord r) :=
  { h with
    confirmTimer := fun n hn => (by cases hn), admitTries := ht, held := fun hh => absurd (hs.symm.trans hh) (by simp)
    confirming := fun hn => absurd hs hn }

theorem confirmCounted {n : Nat} (hn : r.confirmTimer = some n) : RecordSound { r with confirmTimer := some (n - 1) } :=
  { h with
    confirmTimer := fun m hm => by
      have := h.confirmTimer n hn
      cases hm
      omega
    confirming := fun hs => absurd (h.state_of_confirmTimer hn) hs }

/-! ### Links -/

theorem reprofiled {t : List ProfileEntry} (ht : CostsBounded t) {p : Nat} (hp : p ≤ 7) (hc : r.state.committed = true) :
    RecordSound (reprofiled t p r) := by
  have notHeld := (TState.not_reentry_of_committed hc).1
  exact { h with
    profile := hp, cost := ht.airtimeCost_le h.load p, held := fun hs => absurd hs notHeld
    confirming := fun hs => by
      refine ⟨(h.confirming hs).1, ?_⟩
      simp only [Machine.reprofiled]
      rw [if_neg fun hm => hs hm.1]
      simp }

theorem withProfile {p : Nat} (hp : p ≤ 7) : RecordSound { r with profile := p } := { h with profile := hp }

theorem selected_le (t : List ProfileEntry) (hysteresis : Nat) : selected t hysteresis r ≤ 7 := by
  have ceiling := (effectiveCeiling_le t r).trans h.ceiling
  have down (v : Int) : downgrade t r v ≤ 7 := by
    simp only [downgrade]
    split
    · exact (highestProfile_le _ _ _).trans ceiling
    · exact h.profile
  have up (v : Int) : upgrade t hysteresis r v ≤ 7 := by
    simp only [upgrade]
    split
    · exact (highestProfile_le _ _ _).trans ceiling
    · exact h.profile
  simp only [selected]
  split
  · exact h.profile
  · split_ifs
    · exact down _
    · exact h.profile
    · exact up _

theorem averageInto (k : Nat) (sample : Int) : RecordSound (averageInto k sample r) :=
  { h with avg := fun a ha => by cases ha; exact averaged_bounds k h.avg sample }

theorem withFade {fade : Nat} (hf : fade ≤ 255) (hs : r.state = .inService → fade ≤ 127) :
    RecordSound { r with fade := fade } := { h with fade := hf, inService := hs }

/-- FADING entry, whatever the fade counter has counted (R41). -/
theorem fading {fade : Nat} (hf : fade ≤ 255) (hs : r.state = .inService) :
    RecordSound { r with fade := fade, state := .fading } :=
  { h with
    fade := hf, inService := fun hn => (by cases hn), lost := fun _ => h.lost (by simp [hs])
    ranging := fun _ => h.ranging (by simp [hs]), held := fun hn => (by cases hn)
    confirming := fun _ => h.confirming (by simp [hs]) }

/-- FADING exit at a fade counter the parameters allow (R42). -/
theorem fadingCleared (hf : r.fade ≤ 127) (hs : r.state = .fading) : RecordSound { r with state := .inService } :=
  { h with
    inService := fun _ => hf, lost := fun _ => h.lost (by simp [hs]), ranging := fun _ => h.ranging (by simp [hs])
    held := fun hn => (by cases hn), confirming := fun _ => h.confirming (by simp [hs]) }

theorem confirmedRecord {start : Nat} (hp : start ≤ 127) (hs : r.state = .confirming) :
    RecordSound (confirmedRecord start r) :=
  { h with
    fade := hp.trans (by omega), confirmTimer := fun n hn => (by cases hn), inService := fun _ => hp
    lost := fun _ => h.lost (by simp [hs]), ranging := fun _ => h.ranging (by simp [hs]), held := fun hn => (by cases hn)
    confirming := fun _ => ⟨rfl, by
      simp only [Machine.confirmedRecord]
      split_ifs <;> simp_all⟩ }

theorem restoredRecord {length : Nat} (hl : length ≤ 65535) (now : MarkerCount) : RecordSound (restoredRecord length now r) :=
  { h with
    probation := hl
    backoff := by
      have := h.backoff
      simp only [Machine.restoredRecord]
      split <;> omega
    lastOutage := by
      simp only [Machine.restoredRecord]
      split
      · exact Nat.min_le_left _ _
      · exact h.lastOutage }

/-! ### Ranging and polls -/

theorem attempted {message : Option Message} (ha : r.attempts + 1 ≤ 63) (hs : r.state = .ranging)
    (hm : message ≠ some .admitMsg) :
    RecordSound { r with attempts := r.attempts + 1, message := message.or r.message } :=
  { h with
    attempts := ha, held := fun hn => absurd (hs.symm.trans hn) (by simp)
    confirming := fun hn => ⟨(h.confirming hn).1, by
      rcases message with _ | m
      · exact (h.confirming hn).2
      · exact hm⟩ }

theorem withAttempts : RecordSound { r with attempts := 0 } := { h with attempts := Nat.zero_le _ }

theorem measuredRecord (k : Nat) (m : Measurement) : RecordSound (measuredRecord k m r) :=
  { h.averageInto k m.snr with
    timing := by
      simp only [Machine.measuredRecord, clampTiming, clamp]
      omega
    power := by
      simp only [Machine.measuredRecord, clampPower, clamp]
      omega }

theorem rangedRecord (t : List ProfileEntry) (hs : r.state = .ranging) : RecordSound (rangedRecord t r) := by
  have dropped : dropRangeAdjust r.message ≠ some .admitMsg := by
    have kept := (h.confirming (by simp [hs])).2
    rcases hm : r.message with _ | m
    · simp [dropRangeAdjust]
    · cases m <;> simp_all [dropRangeAdjust]
  have profile : initialProfile t r ≤ 7 := by
    simp only [initialProfile]
    split
    · exact Nat.zero_le _
    · exact (highestProfile_le _ _ _).trans ((effectiveCeiling_le t r).trans h.ceiling)
  exact { h with
    profile := profile, attempts := Nat.zero_le _, held := fun hn => absurd (hs.symm.trans hn) (by simp)
    confirming := fun hn => ⟨(h.confirming hn).1, dropped⟩ }

/-- The stored hold is granted as the exchange ends (R31). -/
theorem holdGranted (hs : r.state = .ranging) :
    RecordSound { r with state := .held, holdReq := false, message := none } :=
  { h with
    inService := fun hn => (by cases hn), lost := fun _ => h.lost (by simp [hs]), ranging := fun _ => rfl
    held := fun _ => .inl rfl, confirming := fun _ => ⟨(h.confirming (by simp [hs])).1, by simp⟩ }

/-- A ranged terminal without a stored hold waits for admission (R95). -/
theorem toAdmitWait (hs : r.state = .ranging) (hr : r.holdReq = false) : RecordSound { r with state := .admitWait } :=
  { h with
    inService := fun hn => (by cases hn), lost := fun _ => h.lost (by simp [hs]), ranging := fun _ => hr
    held := fun hn => (by cases hn), confirming := fun _ => h.confirming (by simp [hs]) }

/-- A terminal in LOST or POLLING begins to range (R84, R99). -/
theorem toRanging (hs : r.state = .lost ∨ r.state = .polling) {holdOff : Nat} (ho : holdOff = 0)
    (outstanding : Option FrameNumber) :
    RecordSound { r with holdOff := holdOff, outstanding := outstanding, state := .ranging } :=
  { h with
    holdOff := by simp [ho], inService := fun hn => (by cases hn), lost := fun _ => ho, ranging := fun hn => absurd rfl hn
    held := fun hn => (by cases hn), confirming := fun _ => h.confirming (by rcases hs with hs | hs <;> simp [hs]) }

theorem missedPoll (p : Params) (now : MarkerCount) : RecordSound (missedPoll p now r) :=
  { h with misses := Nat.min_le_left _ _ }

theorem withNextEligible (now : MarkerCount) : RecordSound { r with nextEligible := now } := { h with }

theorem withKeepaliveDue (now : MarkerCount) : RecordSound { r with keepaliveDue := now } := { h with }

theorem withOutstanding (frame : Option FrameNumber) : RecordSound { r with outstanding := frame } := { h with }

theorem withCancelReq (b : Bool) : RecordSound { r with cancelReq := b } := { h with }

/-! ### Markers and messages -/

theorem holdOffVisit (now : MarkerCount) : RecordSound (holdOffVisit now r) := by
  simp only [Machine.holdOffVisit]
  split_ifs with hs ho
  · exact { h with
      misses := Nat.zero_le _, inService := fun hn => (by cases hn), lost := fun _ => ho
      ranging := fun _ => h.ranging (by simp [hs]), held := fun hn => (by cases hn)
      confirming := fun _ => h.confirming (by simp [hs]) }
  · exact { h with holdOff := (Nat.sub_le _ _).trans h.holdOff, lost := fun hn => absurd hs hn }
  · exact h

theorem probationVisit : RecordSound (probationVisit r) := by
  simp only [Machine.probationVisit]
  split
  · exact { h with
      probation := (Nat.sub_le _ _).trans h.probation
      backoff := by
        have := h.backoff
        dsimp only
        split <;> omega }
  · exact h

theorem emittedRecord {timeout : Nat} (ht : timeout ≤ 255) : RecordSound (emittedRecord timeout r) := by
  have timer : ∀ n ∈ (Machine.emittedRecord timeout r).confirmTimer, n ≤ 255 := by
    simp only [Machine.emittedRecord]
    split
    · intro n hn; cases hn; exact ht
    · exact h.confirmTimer
  refine { h with confirmTimer := timer, held := fun _ => .inl rfl, confirming := fun hs => ⟨?_, by simp [Machine.emittedRecord]⟩ }
  simp only [Machine.emittedRecord]
  rw [if_neg fun hm => hs (h.state_of_admitMsg hm)]
  exact (h.confirming hs).1

/-! ### Commands -/

theorem heldFromReentry (hs : r.state = .lost ∨ r.state = .polling ∨ r.state = .admitWait) :
    RecordSound (heldFromReentry r) := by
  have others : r.state ≠ .ranging ∧ r.state ≠ .confirming := by
    rcases hs with hs | hs | hs <;> simp [hs]
  exact { h with
    holdOff := Nat.zero_le _, inService := fun hn => (by cases hn), lost := fun _ => rfl, ranging := fun _ => h.ranging others.1
    held := fun _ => .inl rfl, confirming := fun _ => ⟨(h.confirming others.2).1, by simp [Machine.heldFromReentry]⟩ }

theorem heldFromService (hl : r.state ≠ .lost) (hr : r.state ≠ .ranging) : RecordSound (heldFromService r) :=
  { h with
    probation := Nat.zero_le _, cost := Nat.zero_le _, confirmTimer := fun n hn => (by cases hn)
    inService := fun hn => (by cases hn), lost := fun _ => h.lost hl, ranging := fun _ => h.ranging hr
    held := fun _ => .inr rfl, confirming := fun _ => ⟨rfl, by simp [Machine.heldFromService]⟩ }

theorem withHoldReq (b : Bool) (hs : r.state = .ranging) : RecordSound { r with holdReq := b } :=
  { h with ranging := fun hn => absurd hs hn }

theorem releasedRecord (now : MarkerCount) (hs : r.state = .held) : RecordSound (releasedRecord now r) :=
  { h with
    misses := Nat.zero_le _, inService := fun hn => (by cases hn), lost := fun _ => h.lost (by simp [hs])
    ranging := fun _ => h.ranging (by simp [hs]), held := fun hn => (by cases hn)
    confirming := fun _ => h.confirming (by simp [hs]) }

theorem resetRecord : RecordSound (resetRecord r) :=
  { h with
    fade := Nat.zero_le _, avg := fun a ha => (by cases ha), profile := Nat.zero_le _, holdOff := Nat.zero_le _
    backoff := Nat.zero_le _, probation := Nat.zero_le _, misses := Nat.zero_le _, attempts := Nat.zero_le _
    timing := by simp [Machine.resetRecord], power := by simp [Machine.resetRecord], cost := Nat.zero_le _
    confirmTimer := fun n hn => (by cases hn), admitTries := Nat.zero_le _, inService := fun hn => (by cases hn)
    lost := fun _ => rfl, ranging := fun _ => rfl, held := fun _ => .inl rfl
    confirming := fun _ => ⟨rfl, by simp [Machine.resetRecord]⟩ }

theorem resetHeldRecord : RecordSound (resetHeldRecord r) :=
  { h with
    held := fun _ => .inl rfl
    confirming := fun hn => ⟨(h.confirming hn).1, by simp [Machine.resetHeldRecord]⟩ }

/-! ### Provisioning and costs -/

theorem reclamp (t : List ProfileEntry) : RecordSound (reclamp t r) := by
  simp only [Machine.reclamp]
  split
  · exact h.withProfile ((effectiveCeiling_le t r).trans h.ceiling)
  · exact h

theorem recosted {t : List ProfileEntry} (ht : CostsBounded t) : RecordSound (recosted t r) := by
  simp only [Machine.recosted]
  split
  · exact { h with cost := ht.airtimeCost_le h.load _ }
  · exact h

theorem reprovisioned (t : List ProfileEntry) {e : ProvEntry} (ha : e.addr ≠ 0) (hl : e.load.toNat ≤ 4095)
    (hc : e.ceiling.toNat ≤ 7) : RecordSound (reprovisioned t e r) :=
  RecordSound.reclamp
    (r := { r with addr := e.addr, cls := entryClass e, load := e.load.toNat, ceiling := e.ceiling.toNat })
    { h with addr := ha, load := hl, ceiling := hc } t

end RecordSound

/-- A record just created is sound (R24). -/
theorem recordSound_newRecord (now : MarkerCount) {e : ProvEntry} (ha : e.addr ≠ 0) (hl : e.load.toNat ≤ 4095)
    (hc : e.ceiling.toNat ≤ 7) : RecordSound (newRecord now e) where
  addr := ha
  load := hl
  ceiling := hc
  fade := Nat.zero_le _
  avg := fun a ha => (by cases ha)
  profile := Nat.zero_le _
  holdOff := Nat.zero_le _
  backoff := Nat.zero_le _
  probation := Nat.zero_le _
  misses := Nat.zero_le _
  attempts := Nat.zero_le _
  timing := by simp [newRecord]
  power := by simp [newRecord]
  cost := Nat.zero_le _
  confirmTimer := fun n hn => (by cases hn)
  admitTries := Nat.zero_le _
  lastOutage := Nat.zero_le _
  inService := fun _ => Nat.zero_le _
  lost := fun _ => rfl
  ranging := fun _ => rfl
  held := fun _ => .inl rfl
  confirming := fun _ => ⟨rfl, by simp [newRecord]⟩

end Sys2Proof.Machine
end

section
/-! The records under the operations of LM, OT, RU, MP and AC: with the tables sound and every listed terminal waiting, each
operation keeps every record sound. -/

namespace Sys2Proof.Machine

open Sys2Proof

/-- What the operations on records rest on: the table's order, the bounds of parameters and costs, every record sound, and the
wait list's terminals in ADMIT_WAIT or SHED. -/
structure State.EngineSound (s : State) : Prop where
  records : s.recordsSound
  params : ParamsBound s.params
  costs : CostsBounded s.lm.profiles
  fields : ∀ e ∈ s.tt.records, RecordSound e.2
  waiters : ∀ id ∈ s.ac.waitList, ∃ r, s.record? id = some r ∧ r.state.waiting = true

/-- A condition on the record of an ID, where one is provisioned. -/
def State.recordIs (s : State) (id : Nat) (p : Record → Prop) : Prop := ∀ r, s.record? id = some r → p r

theorem State.recordIs_of_record? {s : State} {id : Nat} {r : Record} (h : s.record? id = some r) {p : Record → Prop}
    (hp : p r) : s.recordIs id p := fun q hq => by
  rw [h] at hq
  cases hq
  exact hp

/-- The record of an ID after a change of that record. -/
theorem State.recordIs_update {s : State} {id : Nat} {f : Record → Record} {p : Record → Prop}
    (h : s.recordIs id fun r => p (f r)) : (s.update id f).recordIs id p := fun q hq => by
  rw [State.record?_update, if_pos rfl, Option.map_eq_some_iff] at hq
  obtain ⟨r, hr, rfl⟩ := hq
  exact h r hr

theorem State.recordIs_congr {s t : State} (h : t.tt = s.tt) {id : Nat} {p : Record → Prop} (hs : s.recordIs id p) :
    t.recordIs id p := fun r hr => hs r (by rwa [State.record?_congr (s := s) (by rw [h])] at hr)

theorem State.recordIs_notify {s : State} {id : Nat} {p : Record → Prop} (hs : s.recordIs id p) (kind : NoticeKind)
    (who : Option Nat) (values : List Int) : (s.notify kind who values).recordIs id p :=
  State.recordIs_congr (s.notify_tt kind who values) hs

/-- The record of an ID after the loss procedure on it (R59). -/
theorem State.record?_lose (s : State) (reason : LossReason) (id : Nat) : (s.lose reason id).record? id =
    (s.record? id).map (lostRecord s.params.holdOffBase s.si.markerCount reason) := by
  rcases hr : s.record? id with _ | r
  · rw [State.lose, State.withRecord_vacant hr, hr]; rfl
  · rw [State.lose, State.withRecord_of_record? hr]
    simp only [State.notifyHoldGranted]
    have same (t : State) (ht : t.tt = s.tt) (hp : t.params = s.params) (hc : t.si = s.si) :
        (t.update id (lostRecord t.params.holdOffBase t.si.markerCount reason)).record? id =
          some (lostRecord s.params.holdOffBase s.si.markerCount reason r) := by
      rw [State.record?_update, if_pos rfl, State.record?_congr (s := s) (by rw [ht]), hr, hp, hc]; rfl
    split <;> simp only [State.record?_notify] <;> split <;> split <;> exact same _ rfl rfl rfl

namespace State.EngineSound

variable {s t : State}

/-- What reaches no record, neither the wait list, the profiles nor the parameters. -/
theorem congr (h : s.EngineSound) (htt : t.tt.records = s.tt.records) (hac : t.ac.waitList = s.ac.waitList) (hlm : t.lm = s.lm)
    (hp : t.params = s.params) : t.EngineSound := by
  have same := State.record?_congr (s := s) (t := t) htt
  refine ⟨(State.recordsSound_congr (by simp only [State.ids, htt])).2 h.records, hp ▸ h.params, hlm ▸ h.costs, ?_, ?_⟩
  · rw [htt]; exact h.fields
  · rw [hac]; simpa only [same] using h.waiters

theorem record (h : s.EngineSound) {id : Nat} {r : Record} (hr : s.record? id = some r) : RecordSound r :=
  h.fields _ (State.record?_mem hr)

theorem notify (h : s.EngineSound) (kind : NoticeKind) (id : Option Nat) (values : List Int) :
    (s.notify kind id values).EngineSound := h.congr (by simp) (by simp) (by simp) (by simp)

theorem setSum (h : s.EngineSound) (sum : Nat) : (s.setSum sum).EngineSound := h.congr rfl rfl rfl rfl

/-- A terminal that does not wait is not listed. -/
theorem not_listed (h : s.EngineSound) {id : Nat} {r : Record} (hr : s.record? id = some r)
    (hw : r.state.waiting = false) : id ∉ s.ac.waitList := fun hm => by
  obtain ⟨q, hq, hw'⟩ := h.waiters id hm
  rw [hr] at hq
  cases hq
  rw [hw] at hw'
  cases hw'

/-- A record changed to a sound one, which waits still where it is listed. -/
theorem update (h : s.EngineSound) {id : Nat} {f : Record → Record} (hf : s.recordIs id fun r => RecordSound (f r))
    (hw : id ∈ s.ac.waitList → s.recordIs id fun r => (f r).state.waiting = true) : (s.update id f).EngineSound := by
  refine ⟨(State.recordsSound_congr (s.ids_update id f)).2 h.records, h.params, h.costs, ?_, ?_⟩
  · intro e he
    obtain ⟨e', he', rfl⟩ := List.mem_map.1 he
    split
    · next hk => exact hf _ (State.mem_record? h.records (hk ▸ he' : (id, e'.2) ∈ s.tt.records))
    · exact h.fields e' he'
  · intro k hk
    obtain ⟨r, hr, hwait⟩ := h.waiters k hk
    rw [State.record?_update]
    split
    · next hid =>
      subst hid
      exact ⟨f r, by rw [hr]; rfl, hw hk r hr⟩
    · exact ⟨r, hr, hwait⟩

/-- A change of one record that keeps its state. -/
theorem change (h : s.EngineSound) {id : Nat} {f : Record → Record} (hf : s.recordIs id fun r => RecordSound (f r))
    (hst : ∀ r, (f r).state = r.state) : (s.update id f).EngineSound :=
  h.update hf fun hm r hr => by
    obtain ⟨q, hq, hw⟩ := h.waiters id hm
    rw [hr] at hq
    cases hq
    rw [hst, hw]

/-- A change of a record that does not wait. -/
theorem move (h : s.EngineSound) {id : Nat} {f : Record → Record}
    (hf : s.recordIs id fun r => RecordSound (f r) ∧ r.state.waiting = false) : (s.update id f).EngineSound :=
  h.update (fun r hr => (hf r hr).1) fun hm r hr => absurd hm (h.not_listed hr (hf r hr).2)

theorem updateAll (h : s.EngineSound) {f : Nat → Record → Record} (hf : ∀ id r, RecordSound r → RecordSound (f id r))
    (hw : ∀ id r, r.state.waiting = true → (f id r).state.waiting = true) : (s.updateAll f).EngineSound := by
  refine ⟨(State.recordsSound_congr (s.ids_updateAll f)).2 h.records, h.params, h.costs, ?_, ?_⟩
  · intro e he
    obtain ⟨e', he', rfl⟩ := List.mem_map.1 he
    exact hf _ _ (h.fields e' he')
  · intro k hk
    obtain ⟨r, hr, hwait⟩ := h.waiters k hk
    exact ⟨f k r, by rw [State.record?_updateAll, hr]; rfl, hw k r hwait⟩

theorem leaveWaitList (h : s.EngineSound) (id : Nat) : (s.leaveWaitList id).EngineSound :=
  ⟨h.records, h.params, h.costs, h.fields, fun k hk => h.waiters k (List.mem_of_mem_filter hk)⟩

theorem not_mem_leaveWaitList (s : State) (id : Nat) : id ∉ (s.leaveWaitList id).ac.waitList := by simp

theorem joinWaitList (h : s.EngineSound) {id : Nat} {r : Record} (hr : s.record? id = some r)
    (hw : r.state.waiting = true) : (s.joinWaitList id).EngineSound := by
  refine ⟨h.records, h.params, h.costs, h.fields, fun k hk => ?_⟩
  rcases (mem_insertBy _ _ _ _).1 hk with rfl | hk
  · exact ⟨r, hr, hw⟩
  · exact h.waiters k hk

theorem withRecord (h : s.EngineSound) {id : Nat} {f : Record → State}
    (hf : ∀ r, s.record? id = some r → (f r).EngineSound) : (s.withRecord id f).EngineSound := by
  rcases hr : s.record? id with _ | r
  · rwa [State.withRecord_vacant hr]
  · rw [State.withRecord_of_record? hr]; exact hf r hr

/-! ### Losses and shedding -/

/-- The loss procedure, where a stored hold is one it grants (R63). -/
theorem lose (h : s.EngineSound) {reason : LossReason} {id : Nat}
    (hg : s.recordIs id fun r => r.holdReq = true → lossGrantsHold reason r = true) : (s.lose reason id).EngineSound :=
  h.withRecord fun r hr => by
    have sum : (if r.state.committed = true then s.setSum (s.ac.committedSum - r.cost) else s).EngineSound ∧
        (if r.state.committed = true then s.setSum (s.ac.committedSum - r.cost) else s).record? id = some r := by
      split
      · exact ⟨h.setSum _, hr⟩
      · exact ⟨h, hr⟩
    dsimp only
    generalize (if r.state.committed = true then s.setSum (s.ac.committedSum - r.cost) else s) = u at sum ⊢
    obtain ⟨hu, hur⟩ := sum
    have list : (if r.state.waiting = true then u.leaveWaitList id else u).EngineSound ∧
        (if r.state.waiting = true then u.leaveWaitList id else u).record? id = some r ∧
        id ∉ (if r.state.waiting = true then u.leaveWaitList id else u).ac.waitList := by
      split
      · exact ⟨hu.leaveWaitList id, hur, not_mem_leaveWaitList u id⟩
      · next hw => exact ⟨hu, hur, hu.not_listed hur (by simpa using hw)⟩
    generalize (if r.state.waiting = true then u.leaveWaitList id else u) = v at list ⊢
    obtain ⟨hv, hvr, hn⟩ := list
    have lost := hv.update (id := id) (f := lostRecord v.params.holdOffBase v.si.markerCount reason)
      (State.recordIs_of_record? hvr ((h.record hr).lostRecord _ _ (hg r hr))) fun hm => absurd hm hn
    split
    · exact (lost.notify _ _ _).notify _ _ _
    · exact lost.notify _ _ _

/-- A record whose stored hold, if any, stands in RANGING loses by a reason that grants it. -/
theorem lose_granting (h : s.EngineSound) {reason : LossReason} (id : Nat)
    (hr : reason = .rangingFailed ∨ reason = .admin ∨ reason = .cancelled) : (s.lose reason id).EngineSound :=
  h.lose fun r hq hreq => by
    have state := (h.record hq).state_of_holdReq hreq
    rcases hr with rfl | rfl | rfl <;> simp [lossGrantsHold, state, hreq]

/-- A record that does not range stores no hold. -/
theorem lose_of_not_ranging (h : s.EngineSound) {reason : LossReason} {id : Nat}
    (hn : s.recordIs id fun r => r.state ≠ .ranging) : (s.lose reason id).EngineSound :=
  h.lose fun r hq hreq => absurd ((h.record hq).state_of_holdReq hreq) (hn r hq)

theorem shedTerminal (h : s.EngineSound) (noted : Bool) {id : Nat} (hc : s.recordIs id fun r => r.state.committed = true) :
    (s.shedTerminal noted id).EngineSound :=
  h.withRecord fun r hr => by
    have shed := ((h.setSum (s.ac.committedSum - r.cost)).update (id := id) (f := shedRecord s.si.markerCount)
      (fun q hq => (h.record hq).shedRecord _ (hc q hq)) fun _ _ _ => rfl).notify .terminalShed (some id) [(r.cost : Int)]
    have listed := shed.joinWaitList (id := id) (r := shedRecord s.si.markerCount r)
      (by rw [State.record?_notify, State.record?_update, if_pos rfl]; exact congrArg (Option.map _) hr) rfl
    dsimp only
    split
    · exact listed.congr rfl rfl rfl rfl
    · exact listed

/-- A victim is committed (R125). -/
theorem committed_of_victim? (h : s.EngineSound) {p : Record → Bool} (hp : ∀ r, p r = true → sheddable r = true) {id : Nat}
    (hv : s.victim? p = some id) : s.recordIs id fun r => r.state.committed = true := by
  obtain ⟨⟨r, hr, hpr⟩, _⟩ := State.victim?_spec h.records hv
  refine State.recordIs_of_record? hr ?_
  have := hp r hpr
  simp only [sheddable, Bool.and_eq_true] at this
  exact this.1

theorem shedWhileOver (h : s.EngineSound) (noted : Bool) (n : Nat) : (State.shedWhileOver noted n s).EngineSound := by
  induction n generalizing s with
  | zero => exact h
  | succ n ih =>
    simp only [State.shedWhileOver]
    split
    · exact h
    · split
      · exact h
      · next hv => exact ih (h.shedTerminal noted (h.committed_of_victim? (fun _ hp => hp) hv))

theorem shedCheck (h : s.EngineSound) (noted : Bool) : (s.shedCheck noted).EngineSound := h.shedWhileOver noted _

/-! ### Reports LM counts -/

theorem changeProfile (h : s.EngineSound) {id p : Nat} (hp : p ≤ 7) (hc : s.recordIs id fun r => r.state.committed = true) :
    (s.changeProfile id p).EngineSound :=
  h.withRecord fun r _ => by
    dsimp only
    split
    · exact h
    · have changed (sum : Nat) (values : List Int) :
          (((s.update id (reprofiled s.lm.profiles p)).setSum sum).notify .profileChanged (some id) values).EngineSound :=
        ((h.change (fun q hq => (h.record hq).reprofiled h.costs hp (hc q hq)) fun _ => rfl).setSum _).notify _ _ _
      split
      · exact (changed _ _).shedCheck false
      · exact changed _ _

theorem selectCommitted (h : s.EngineSound) {id : Nat} (hc : s.recordIs id fun r => r.state.committed = true) :
    (s.selectCommitted id).EngineSound :=
  h.withRecord fun _ hr => h.changeProfile ((h.record hr).selected_le _ _) hc

theorem selectSilently (h : s.EngineSound) (id : Nat) : (s.selectSilently id).EngineSound :=
  h.change (fun _ hr => (h.record hr).withProfile ((h.record hr).selected_le _ _)) fun _ => rfl

theorem averageInto (h : s.EngineSound) (id : Nat) (snr : Int) :
    (s.update id (averageInto s.params.snrShift snr)).EngineSound :=
  h.change (fun _ hr => (h.record hr).averageInto _ _) fun _ => rfl

/-- FADING entry of a record that would be sound in FADING, whatever its counter has counted (R41). -/
theorem enterFading {id : Nat} (h : (s.update id fun r => { r with state := .fading }).EngineSound)
    (hr : ∃ r, s.record? id = some r) : (s.enterFading id).EngineSound := by
  obtain ⟨r, hr⟩ := hr
  have fading : (s.update id fun r => { r with state := .fading }).record? id = some { r with state := .fading } := by
    rw [State.record?_update, if_pos rfl, hr]; rfl
  simp only [State.enterFading, State.withRecord_of_record? hr]
  split
  · refine (h.notify _ _ _).changeProfile ?_ fun q hq => ?_
    · exact (highestProfile_le _ _ _).trans ((min_le_left _ _).trans (h.record fading).profile)
    · rw [State.record?_notify, fading] at hq
      cases hq; rfl
  · exact h.notify _ _ _

/-- A failed burst of a record that is not IN_SERVICE: the loss, or the counter and its warning (R39, R40). -/
theorem countFailure (h : s.EngineSound) {id : Nat} (o : BurstOutcome)
    (hn : s.recordIs id fun r => r.state ≠ .ranging ∧ r.state ≠ .inService) : (s.countFailure id o).EngineSound :=
  h.withRecord fun r hr => by
    split
    · exact h.lose_of_not_ranging fun q hq => (hn q hq).1
    · next hf =>
      have counted : (s.update id fun q => { q with fade := r.fade + fadeStep o }).EngineSound :=
        h.change (fun q hq => (h.record hq).withFade (by omega) fun hs => absurd hs (hn q hq).2) fun _ => rfl
      dsimp only
      split
      · exact counted.notify _ _ _
      · exact counted

/-- A failed burst of an IN_SERVICE record, with the FADING entry that may follow (R39 to R41). -/
theorem failedReport_inService (h : s.EngineSound) {id : Nat} {r : Record} (hr : s.record? id = some r)
    (hs : r.state = .inService) (o : BurstOutcome) : (s.failedReport id o).EngineSound := by
  by_cases hf : 255 < r.fade + fadeStep o
  · have count : s.countFailure id o = s.lose .fade id := by
      rw [State.countFailure, State.withRecord_of_record? hr, if_pos hf]
    have lost : (s.lose .fade id).record? id = some (lostRecord s.params.holdOffBase s.si.markerCount .fade r) := by
      rw [State.record?_lose, hr]; rfl
    have state : (lostRecord s.params.holdOffBase s.si.markerCount .fade r).state = .lost := by
      simp [lostRecord, stateAfterLoss, lossGrantsHold, hs]
    rw [State.failedReport, count]
    simp only [State.withRecord_of_record? lost, state]
    exact h.lose_of_not_ranging (State.recordIs_of_record? hr (by simp [hs]))
  · have counted : ∃ u : State, s.countFailure id o = u ∧
        u.tt = (s.update id fun q => { q with fade := r.fade + fadeStep o }).tt ∧ u.ac.waitList = s.ac.waitList ∧
        u.lm = s.lm ∧ u.params = s.params := by
      refine ⟨_, rfl, ?_⟩
      rw [State.countFailure, State.withRecord_of_record? hr, if_neg hf]
      dsimp only
      split <;> simp
    obtain ⟨u, hu, htt, hac, hlm, hp⟩ := counted
    have ur : u.record? id = some { r with fade := r.fade + fadeStep o } := by
      rw [State.record?_congr (congrArg Tt.records htt), State.record?_update, if_pos rfl, hr]; rfl
    rw [State.failedReport, hu]
    simp only [State.withRecord_of_record? ur, hs, true_and]
    split
    · refine enterFading ?_ ⟨_, ur⟩
      have twice : (s.update id fun q => { q with fade := r.fade + fadeStep o, state := .fading }).EngineSound :=
        h.move (State.recordIs_of_record? hr ⟨(h.record hr).fading (by omega) hs, by rw [hs]; rfl⟩)
      refine twice.congr ?_ hac hlm hp
      simp only [State.update_tt, htt, assocUpdate_assocUpdate]
      rfl
    · next hle =>
      have counted : (s.update id fun q => { q with fade := r.fade + fadeStep o }).EngineSound :=
        h.change (State.recordIs_of_record? hr ((h.record hr).withFade (by omega) fun _ => by omega)) fun _ => rfl
      exact counted.congr (congrArg Tt.records htt) hac hlm hp

/-- A failed burst of a committed record (R43). -/
theorem failedReport (h : s.EngineSound) {id : Nat} {r : Record} (hr : s.record? id = some r)
    (hc : r.state.committed = true) (o : BurstOutcome) : (s.failedReport id o).EngineSound := by
  by_cases hs : r.state = .inService
  · exact h.failedReport_inService hr hs o
  · have counted := h.countFailure (id := id) o
      (State.recordIs_of_record? hr ⟨(TState.not_reentry_of_committed hc).2.2.1, hs⟩)
    have state : (s.countFailure id o).recordIs id fun q => q.state ≠ .inService := by
      rw [State.countFailure, State.withRecord_of_record? hr]
      split
      · intro q hq
        rw [State.record?_lose, hr] at hq
        cases hq
        simp only [lostRecord, stateAfterLoss]
        split_ifs <;> simp
      · have kept : (s.update id fun q => { q with fade := r.fade + fadeStep o }).recordIs id fun q => q.state ≠ .inService :=
          State.recordIs_update (State.recordIs_of_record? hr hs)
        dsimp only
        split
        · exact State.recordIs_notify kept _ _ _
        · exact kept
    refine counted.withRecord fun q hq => ?_
    rw [if_neg fun hn => state q hq hn.1]
    exact counted

theorem goodReport (h : s.EngineSound) {id : Nat} (hc : s.recordIs id fun r => r.state.committed = true) :
    (s.goodReport id).EngineSound ∧ (s.goodReport id).recordIs id fun r => r.state.committed = true := by
  rcases hr : s.record? id with _ | r
  · rw [State.goodReport, State.withRecord_vacant hr]
    exact ⟨h, hc⟩
  rw [State.goodReport, State.withRecord_of_record? hr]
  split
  · exact ⟨h, hc⟩
  have counted : (s.update id fun q => { q with fade := r.fade - 1 }).EngineSound :=
    h.change (State.recordIs_of_record? hr ((h.record hr).withFade ((Nat.sub_le _ _).trans (h.record hr).fade)
      fun hs => (Nat.sub_le _ _).trans ((h.record hr).inService hs))) fun _ => rfl
  have after : (s.update id fun q => { q with fade := r.fade - 1 }).record? id = some { r with fade := r.fade - 1 } := by
    rw [State.record?_update, if_pos rfl, hr]; rfl
  dsimp only
  split
  · next hf =>
    refine ⟨(counted.move (State.recordIs_of_record? after ⟨?_, ?_⟩)).notify _ _ _,
      State.recordIs_notify (State.recordIs_update ?_) _ _ _⟩
    · exact (counted.record after).fadingCleared (hf.2.trans h.params.fadeExit) hf.1
    · simp [hf.1, TState.waiting]
    · exact fun _ _ => rfl
  · exact ⟨counted, State.recordIs_of_record? after (hc r hr)⟩

theorem confirmIfWaiting (h : s.EngineSound) {id : Nat} (hc : s.recordIs id fun r => r.state.committed = true) :
    (s.confirmIfWaiting id).EngineSound ∧ (s.confirmIfWaiting id).recordIs id fun r => r.state.committed = true := by
  rcases hr : s.record? id with _ | r
  · rw [State.confirmIfWaiting, State.withRecord_vacant hr]
    exact ⟨h, hc⟩
  rw [State.confirmIfWaiting, State.withRecord_of_record? hr]
  split
  · next hs =>
    have confirmed := h.move (id := id) (f := confirmedRecord s.params.probationStart)
      (State.recordIs_of_record? hr ⟨(h.record hr).confirmedRecord h.params.probationStart hs, by rw [hs]; rfl⟩)
    have after : (s.update id (confirmedRecord s.params.probationStart)).record? id =
        some (confirmedRecord s.params.probationStart r) := by
      rw [State.record?_update, if_pos rfl, hr]; rfl
    rw [State.restore, State.withRecord_of_record? after]
    refine ⟨(confirmed.change (fun q hq => (confirmed.record hq).restoredRecord h.params.probationLength _)
      fun _ => rfl).notify _ _ _, State.recordIs_notify (State.recordIs_update ?_) _ _ _⟩
    exact State.recordIs_of_record? after rfl
  · exact ⟨h, hc⟩

theorem grantReport (h : s.EngineSound) (id : Nat) (o : BurstOutcome) (snr : Int) : (s.grantReport id o snr).EngineSound :=
  h.withRecord fun r hr => by
    split
    · next hc =>
      cases o with
      | good =>
        obtain ⟨good, stillCommitted⟩ := h.goodReport (State.recordIs_of_record? hr hc)
        obtain ⟨confirmed, committed⟩ := good.confirmIfWaiting stillCommitted
        exact (confirmed.averageInto id snr).selectCommitted (State.recordIs_update committed)
      | crcBad => exact h.failedReport hr hc _
      | missed => exact h.failedReport hr hc _
    · exact h

theorem countKeepalive (h : s.EngineSound) (select : Bool) {id : Nat} (hs : s.recordIs id fun r => r.state = .shed)
    (o : BurstOutcome) (snr : Int) : (State.countKeepalive select s id o snr).EngineSound := by
  have failed (o : BurstOutcome) : (s.countFailure id o).EngineSound :=
    h.countFailure o fun r hr => by simp [hs r hr]
  simp only [State.countKeepalive]
  split
  · have counted : (s.update id fun r => { r with fade := r.fade - 1 }).EngineSound :=
      h.change (fun r hr => (h.record hr).withFade ((Nat.sub_le _ _).trans (h.record hr).fade)
        fun hi => absurd ((hs r hr).symm.trans hi) (by simp)) fun _ => rfl
    exact (counted.averageInto id snr).selectSilently id
  · split
    · exact (failed _).selectSilently id
    · exact failed _

/-! ### Ranging -/

/-- A ranged terminal: the hold it stored, or its place on the wait list (R95). -/
theorem ranged (h : s.EngineSound) {id : Nat} (hs : s.recordIs id fun r => r.state = .ranging) : (s.ranged id).EngineSound :=
  h.withRecord fun r hr => by
    have profiled : (s.update id (rangedRecord s.lm.profiles)).EngineSound :=
      h.change (fun q hq => (h.record hq).rangedRecord _ (hs q hq)) fun _ => rfl
    have after : (s.update id (rangedRecord s.lm.profiles)).record? id = some (rangedRecord s.lm.profiles r) := by
      rw [State.record?_update, if_pos rfl, hr]; rfl
    have state : (rangedRecord s.lm.profiles r).state = .ranging := hs r hr
    dsimp only
    split
    · exact (profiled.move (State.recordIs_of_record? after
        ⟨(profiled.record after).holdGranted state, by rw [state]; rfl⟩)).notify _ _ _
    · next hn =>
      have waits := profiled.move (id := id) (f := fun q => { q with state := .admitWait })
        (State.recordIs_of_record? after ⟨(profiled.record after).toAdmitWait state (Bool.eq_false_iff.2 hn), by rw [state]; rfl⟩)
      exact waits.joinWaitList (r := { rangedRecord s.lm.profiles r with state := .admitWait })
        (by rw [State.record?_update, if_pos rfl, after]; rfl) rfl

theorem attempt (h : s.EngineSound) {id : Nat} (hs : s.recordIs id fun r => r.state = .ranging) {message : Option Message}
    (hm : message ≠ some .admitMsg) : (s.attempt id message).EngineSound :=
  h.withRecord fun r hr => by
    split
    · next ha =>
      have := h.params.rangingMaxAttempts
      exact h.change (f := fun r => { r with attempts := r.attempts + 1, message := message.or r.message })
        (State.recordIs_of_record? hr ((h.record hr).attempted (by omega) (hs r hr) hm)) fun _ => rfl
    · exact h.lose_granting id (.inl rfl)

theorem measure (h : s.EngineSound) {id : Nat} (hs : s.recordIs id fun r => r.state = .ranging) (m : Measurement) :
    (s.measure id m).EngineSound := by
  simp only [State.measure]
  split
  · have measured : (s.update id (measuredRecord s.params.snrShift m)).EngineSound :=
      h.change (fun q hq => (h.record hq).measuredRecord _ _) fun _ => rfl
    have state : (s.update id (measuredRecord s.params.snrShift m)).recordIs id fun r => r.state = .ranging :=
      State.recordIs_update hs
    split
    · exact measured.ranged state
    · exact measured.attempt state (by simp [rangeAdjust])
  · exact h.attempt hs (by simp)

theorem firstMeasurement (h : s.EngineSound) {id : Nat} (hs : s.recordIs id fun r => r.state = .ranging) (m : Measurement) :
    (s.firstMeasurement id m).EngineSound :=
  measure (h.change (f := fun r => { r with attempts := 0 }) (fun _ hq => (h.record hq).withAttempts) fun _ => rfl)
    (State.recordIs_update hs) m

/-- A reboot ends in RANGING, where the report is the first measurement (R62, R102). -/
theorem rebooted (h : s.EngineSound) {id : Nat} (hn : s.recordIs id fun r => r.state ≠ .ranging) (m : Measurement) :
    ((s.lose .rebooted id).firstMeasurement id m).EngineSound := by
  refine (h.lose_of_not_ranging hn).firstMeasurement (fun q hq => ?_) m
  rw [State.record?_lose, Option.map_eq_some_iff] at hq
  obtain ⟨r, _, rfl⟩ := hq
  rfl

theorem contentionListed (h : s.EngineSound) (id : Nat) (m : Measurement) : (s.contentionListed id m).EngineSound :=
  h.withRecord fun r hr => by
    have begun (hs : r.state = .lost ∨ r.state = .polling) :
        ((s.update id fun r => { r with holdOff := 0, outstanding := none, state := .ranging }).firstMeasurement id m).EngineSound :=
      firstMeasurement (h.move (State.recordIs_of_record? hr
        ⟨(h.record hr).toRanging hs rfl none, by rcases hs with hs | hs <;> rw [hs] <;> rfl⟩))
        (State.recordIs_update fun _ _ => rfl) m
    have rebooted (hn : r.state ≠ .ranging) := h.rebooted (State.recordIs_of_record? (p := fun r => r.state ≠ .ranging) hr hn) m
    cases hs : r.state with
    | held => exact h
    | lost => exact begun (.inl hs)
    | polling => exact begun (.inr hs)
    | ranging =>
      exact measure (h.change (f := fun r => { r with outstanding := none }) (fun _ hq => (h.record hq).withOutstanding none)
        fun _ => rfl) (State.recordIs_update (State.recordIs_of_record? hr hs)) m
    | admitWait => exact rebooted (by simp [hs])
    | confirming => exact rebooted (by simp [hs])
    | inService => exact rebooted (by simp [hs])
    | fading => exact rebooted (by simp [hs])
    | shed => exact rebooted (by simp [hs])

/-! ### Polls -/

theorem stateIs_of_stateOf {id : Nat} {st : TState} (h : s.stateOf id = some st) : s.recordIs id fun r => r.state = st :=
  fun r hr => by
    rw [State.stateOf, hr] at h
    exact Option.some.inj h

theorem judgePoll (h : s.EngineSound) (select : Bool) (id : Nat) (m : Measurement) :
    (State.judgePoll select s id m).EngineSound := by
  simp only [State.judgePoll]
  split
  · next hst =>
    have polling := stateIs_of_stateOf hst
    simp only [State.judgePolling]
    split
    · refine firstMeasurement (h.move fun r hr => ⟨?_, by rw [polling r hr]; rfl⟩) (State.recordIs_update fun _ _ => rfl) m
      exact (h.record hr).toRanging (.inr (polling r hr)) ((h.record hr).lost (by simp [polling r hr])) r.outstanding
    · exact h.change (fun r hr => (h.record hr).missedPoll _ _) fun _ => rfl
    · exact h.change (fun r hr => (h.record hr).withNextEligible _) fun _ => rfl
  · next hst => exact h.measure (stateIs_of_stateOf hst) m
  · next hst =>
    refine countKeepalive (h.change (f := fun r => { r with keepaliveDue := after s.si.markerCount s.params.keepaliveInterval })
      (fun r hr => (h.record hr).withKeepaliveDue _) fun _ => rfl) select (State.recordIs_update (stateIs_of_stateOf hst)) _ _
  · exact h

theorem cleared (h : s.EngineSound) (id : Nat) : (s.update id clearPoll).EngineSound :=
  h.change (fun _ hr => (h.record hr).withOutstanding none) fun _ => rfl

theorem pollReport (h : s.EngineSound) (select : Bool) (id : Nat) (frame : FrameNumber) (m : Measurement) :
    (State.pollReport select s id frame m).EngineSound :=
  h.withRecord fun r _ => by
    split
    · exact (h.cleared id).judgePoll select id m
    · exact h

theorem endPoll (h : s.EngineSound) (select : Bool) (n : FrameNumber) (id : Nat) : (State.endPoll select n s id).EngineSound :=
  h.withRecord fun r _ => by
    split
    · exact h
    · split
      · exact (h.cleared id).judgePoll select id _
      · exact h

theorem endFrame (h : s.EngineSound) (select : Bool) (n : FrameNumber) : (State.endFrame select s n).EngineSound :=
  foldl_kept (P := State.EngineSound) (fun _ id hu => endPoll hu select n id) _ h

/-! ### Markers -/

theorem resolveCancel (h : s.EngineSound) (id : Nat) : (s.resolveCancel id).EngineSound :=
  h.withRecord fun _ _ => by
    have cleared : (s.update id fun r => { r with cancelReq := false }).EngineSound :=
      h.change (fun _ hr => (h.record hr).withCancelReq false) fun _ => rfl
    dsimp only
    split
    · refine notify ?_ _ _ _
      split
      · exact (cleared.lose_granting id (.inr (.inr rfl))).congr rfl rfl rfl rfl
      · exact cleared
    · exact h

theorem holdOffStage (h : s.EngineSound) : s.holdOffStage.EngineSound := by
  refine h.updateAll (fun id r hr => ?_) fun id r hw => ?_
  · split
    · exact hr
    · exact hr.holdOffVisit _
  · have notLost := (TState.not_committed_of_waiting hw).2.1
    split
    · exact hw
    · rw [holdOffVisit, if_neg notLost, hw]

theorem probationStage (h : s.EngineSound) : s.probationStage.EngineSound := by
  refine h.updateAll (fun id r hr => hr.probationVisit) fun id r hw => ?_
  rw [probationVisit, if_neg fun hc => by simp [(TState.not_committed_of_waiting hw).2.2.2] at hc, hw]

theorem confirmVisit (h : s.EngineSound) (id : Nat) : (s.confirmVisit id).EngineSound :=
  h.withRecord fun r hr => by
    split
    · exact h
    · next n hn =>
      have confirming := (h.record hr).state_of_confirmTimer hn
      split
      · refine h.withRecord fun q hq => ?_
        rw [hr] at hq
        cases hq
        have := h.params.admitTriesMax
        split
        · exact h.change (State.recordIs_of_record? hr ((h.record hr).retriedRecord confirming (by omega))) fun _ => rfl
        · exact h.lose_of_not_ranging (State.recordIs_of_record? hr (by simp [confirming]))
      · exact h.change (f := fun r => { r with confirmTimer := some (n - 1) })
          (State.recordIs_of_record? hr ((h.record hr).confirmCounted hn)) fun _ => rfl

theorem admitTerminal (h : s.EngineSound) {id cost : Nat} (hw : s.recordIs id fun r => r.state.waiting = true)
    (hc : cost ≤ 2047) : (s.admitTerminal id cost).EngineSound :=
  h.withRecord fun _ _ =>
    (((h.leaveWaitList id).update (fun q hq => (h.record hq).admittedRecord hc (hw q hq))
      fun hm => absurd hm (not_mem_leaveWaitList s id)).setSum _).notify _ _ _

/-- A terminal stays listed while others are shed. -/
theorem mem_waitList_makeRoom (headClass cost n : Nat) (s : State) {id : Nat} (hm : id ∈ s.ac.waitList) :
    id ∈ (State.makeRoom headClass cost n s).ac.waitList := by
  induction n generalizing s with
  | zero => exact hm
  | succ n ih =>
    simp only [State.makeRoom]
    split
    · exact hm
    · split
      · exact hm
      · next v _ =>
        refine ih _ ?_
        simp only [State.shedTerminal, State.withRecord]
        split
        · split <;> simp [hm]
        · exact hm

theorem makeRoom (h : s.EngineSound) (headClass cost n : Nat) : (State.makeRoom headClass cost n s).EngineSound := by
  induction n generalizing s with
  | zero => exact h
  | succ n ih =>
    simp only [State.makeRoom]
    split
    · exact h
    · split
      · exact h
      · next hv =>
        refine ih (h.shedTerminal true (h.committed_of_victim? (fun r hp => ?_) hv))
        simp only [preemptible, Bool.and_eq_true] at hp
        exact hp.1

theorem admissionPass (h : s.EngineSound) (n : Nat) : (State.admissionPass n s).EngineSound := by
  have listed {u : State} (hu : u.EngineSound) {id : Nat} (hm : id ∈ u.ac.waitList) :
      u.recordIs id fun r => r.state.waiting = true := by
    obtain ⟨r, hr, hw⟩ := hu.waiters id hm
    exact State.recordIs_of_record? hr hw
  induction n generalizing s with
  | zero => exact h
  | succ n ih =>
    simp only [State.admissionPass]
    split
    · exact h
    · next id rest hl =>
      have head : id ∈ s.ac.waitList := by simp [hl]
      split
      · exact h
      · split
        · exact h
        · next r hr =>
          have cost : airtimeCost s.lm.profiles r.load r.profile ≤ 2047 := h.costs.airtimeCost_le (h.record hr).load _
          split
          · exact ih (h.admitTerminal (listed h head) cost)
          · split
            · have room := h.makeRoom r.cls.code (airtimeCost s.lm.profiles r.load r.profile) s.tt.records.length
              exact ih (room.admitTerminal (listed room (mem_waitList_makeRoom _ _ _ s head)) cost)
            · exact h

/-- AC's figures reach no record and no place on the wait list. -/
theorem budgetStage (h : s.EngineSound) : s.budgetStage.EngineSound := by
  have staged (u : State) : u.applyStaged.tt.records = u.tt.records ∧ u.applyStaged.ac.waitList = u.ac.waitList ∧
      u.applyStaged.lm = u.lm ∧ u.applyStaged.params = u.params := by
    simp only [State.applyStaged]
    split <;> exact ⟨rfl, rfl, rfl, rfl⟩
  have storm {u : State} (hu : u.EngineSound) : u.countStorm.EngineSound := by
    simp only [State.countStorm]
    split
    · exact hu
    · split
      · exact notify (hu.congr (t := u.setStorm none) rfl rfl rfl rfl) _ _ _
      · exact hu.congr rfl rfl rfl rfl
  obtain ⟨htt, hac, hlm, hp⟩ := staged s
  have level : s.applyStaged.countStorm.computeRaw.holdLevel.EngineSound :=
    (storm (h.congr htt hac hlm hp)).congr rfl rfl rfl rfl
  simp only [State.budgetStage, State.announceBudget]
  split
  · exact level.congr rfl rfl rfl rfl
  · exact notify (level.congr (t := s.applyStaged.countStorm.computeRaw.holdLevel.computeBudget) rfl rfl rfl rfl) _ _ _

theorem runStage (h : s.EngineSound) (rank : Nat → Nat) (stage : MarkerStage) : (runStage rank s stage).EngineSound := by
  cases stage with
  | cancel => exact foldl_kept (P := State.EngineSound) (fun _ id hu => resolveCancel hu id) _ h
  | holdOff => exact h.holdOffStage
  | probation => exact h.probationStage
  | confirm => exact foldl_kept (P := State.EngineSound) (fun _ id hu => confirmVisit hu id) _ h
  | budget => exact h.budgetStage
  | shedCheck => exact h.shedCheck true
  | admission => exact h.admissionPass _

theorem markerInRun (h : s.EngineSound) : s.markerInRun.EngineSound := by
  have counted : s.countMarker.EngineSound := h.congr rfl rfl rfl rfl
  have stages := foldl_kept (op := Machine.runStage (Config.cancelRank s.raceTick)) (P := State.EngineSound)
    (fun _ stage hu => hu.runStage _ stage) (interleave (Config.markerPicks s.raceTick) otStages acStages) counted
  exact stages.congr rfl rfl rfl rfl

end State.EngineSound

end Sys2Proof.Machine
end

section
/-! The law of the fields over whole states, and every part of a step that keeps it (R16, R19, R21, R39, R91, R171, R179). -/

namespace Sys2Proof.Machine

open Sys2Proof

/-! ## Loaded parameters and the lengths of a cell's lists -/

theorem readHalves_length {l : List Byte} {v : List Half} (h : readHalves l = some v) : l.length = 2 * v.length := by
  induction l using readHalves.induct generalizing v with
  | case1 => cases h; rfl
  | case2 a b rest ih =>
    simp only [readHalves, Option.map_eq_some_iff] at h
    obtain ⟨w, hw, rfl⟩ := h
    have := ih hw
    simp only [List.length_cons]
    omega
  | case3 l h₁ h₂ =>
    rw [readHalves.eq_3 l h₁ h₂] at h
    cases h

theorem oneByte_eq_command {params : List Byte} {f : Byte → Command} {c : Command} (h : oneByte params f = .command c) :
    ∃ v, c = f v := by
  unfold oneByte at h
  split at h
  · cases h; exact ⟨_, rfl⟩
  · cases h

theorem noByte_eq_command {params : List Byte} {d c : Command} (h : noByte params d = .command c) : c = d := by
  unfold noByte at h
  split at h
  · cases h; rfl
  · cases h

/-- A command read from a cell carries lists of the lengths its cell requires (R163 check 4). -/
theorem readCommand_lengthOk {code : Byte} {params : List Byte} {c : Command} (h : readCommand code params = .command c) :
    c.lengthOk = true := by
  have one {f : Byte → Command} (hf : ∀ v, (f v).lengthOk = true) (h : oneByte params f = .command c) :
      c.lengthOk = true := by
    obtain ⟨v, rfl⟩ := oneByte_eq_command h
    exact hf v
  have zero {d : Command} (hd : d.lengthOk = true) (h : noByte params d = .command c) : c.lengthOk = true := by
    rw [noByte_eq_command h]; exact hd
  have halves {n : Nat} {f : List Half → Command} (hf : ∀ v, v.length = n → (f v).lengthOk = true)
      (h : (match readHalves params with
        | some v => if v.length = n then CommandRead.command (f v) else .badLength
        | none => .badLength) = .command c) : c.lengthOk = true := by
    split at h
    · split at h
      · next hv => cases h; exact hf _ hv
      · cases h
    · cases h
  unfold readCommand at h
  split at h
  case h_1 => exact one (fun _ => rfl) h
  case h_2 =>
    unfold readLoadTerminals at h
    split at h
    · split at h
      · split at h
        · next hn =>
          cases h
          simp only [Command.lengthOk, Bool.and_eq_true, decide_eq_true_eq]
          omega
        · cases h
      · cases h
    · cases h
  case h_3 => exact one (fun _ => rfl) h
  case h_4 => exact one (fun _ => rfl) h
  case h_5 => exact one (fun _ => rfl) h
  case h_6 => exact one (fun _ => rfl) h
  case h_7 => exact one (fun _ => rfl) h
  case h_8 => exact one (fun _ => rfl) h
  case h_9 =>
    split at h
    · split at h
      · next ht => cases h; simp [Command.lengthOk, ht]
      · cases h
    · cases h
  case h_10 => exact halves (fun v hv => by simp [Command.lengthOk, hv]) h
  case h_11 =>
    unfold readLoadLevelTable at h
    split at h
    · next ths hold hths hdrop =>
      cases h
      have taken := readHalves_length hths
      have left := congrArg List.length hdrop
      simp only [List.length_take, List.length_drop, List.length_singleton] at taken left
      simp only [Command.lengthOk, beq_iff_eq]
      omega
    · cases h
  case h_12 =>
    unfold readLoadFilters at h
    split at h
    · cases h
    · split at h
      · cases h
      · split at h
        · cases h; rfl
        · cases h
  case h_13 => exact halves (fun v hv => by simp [Command.lengthOk, hv]) h
  case h_14 => exact one (fun _ => rfl) h
  case h_15 => exact zero rfl h
  case h_16 => exact zero rfl h
  case h_17 => exact zero rfl h
  case h_18 => exact one (fun _ => rfl) h
  case h_19 =>
    split at h
    · next hm => cases h; simp [Command.lengthOk, hm]
    · cases h
  case h_20 => exact zero rfl h
  case h_21 => cases h

/-- The parameters of a list of 27 values are those values (12.4). -/
theorem values_paramsOf {v : List Nat} (h : v.length = 27) : (paramsOf v).values = v := by
  refine List.ext_getElem (by simp [Params.values, h]) fun i hi hj => ?_
  rw [h] at hj
  have value (k : Nat) (hk : k < v.length) : v.getD k 0 = v[k] := by simp [hk]
  simp only [Params.values, paramsOf]
  interval_cases i <;> simp only [List.getElem_cons_succ, List.getElem_cons_zero] <;> exact value _ _

/-! ## The law -/

/-- The wait list's terminals wait. -/
def State.waitersWait (s : State) : Prop := ∀ id ∈ s.ac.waitList, ∃ r, s.record? id = some r ∧ r.state.waiting = true

/-- The law of the fields with what it rests on: the order of the records, the bounds of the tables in force and in flight,
the waiting of the wait list's terminals, and the mode of a sector reset past its first step. -/
structure State.FieldsLaw (s : State) : Prop where
  records : s.recordsSound
  params : s.paramsSound
  costs : CostsBounded s.lm.profiles
  table : ∀ t ∈ s.tableInFlight, CostsBounded t
  fields : ∀ e ∈ s.tt.records, RecordSound e.2
  waiters : s.accountsSuspended = false → s.waitersWait
  reset : ∀ tag k, s.mu.inFlight = some (.sectorReset tag k) → 1 ≤ k → s.si.mode = .config
  watchdog : s.watchdogSound
  polls : s.pollsSound
  emission : s.emissionSound

theorem costsBounded_of_tableSound {t : List ProfileEntry} (h : tableSound t) : CostsBounded t := fun e he => by
  obtain ⟨_, _, range, _⟩ := h
  obtain ⟨_, _, capacity, _, overhead⟩ := range e he
  exact ⟨capacity, overhead⟩

/-- The laws of the account and of the settings give what the law of the fields rests on. -/
theorem State.fieldsLaw_of_sound {s : State} (hl : s.ledgerSound) (hset : s.settingsSound) (hf : s.fieldsSound)
    (hw : s.watchdogSound) (hp : s.pollsSound) (he : s.emissionSound) : s.FieldsLaw := by
  obtain ⟨records, accounts, _, flight⟩ := hl
  obtain ⟨table, tables, _⟩ := hset
  refine ⟨records, hf.1, costsBounded_of_tableSound table, fun t ht => costsBounded_of_tableSound (tables t ht),
    fun e hm => (recordSound_iff e.2).2 (hf.2 e hm), fun hs id hid => ?_, fun tag k hk _ => ?_, hw, hp, he⟩
  · have waiting := (accounts hs).2.2.1 id hid
    simp only [State.stateOf, Option.map_map, Option.map_eq_some_iff, Function.comp] at waiting
    exact waiting
  · simp only [State.inFlightSound, hk] at flight
    exact flight.2.1

namespace State.FieldsLaw

variable {s t : State}

/-- The law gives the statements of the obligation. -/
theorem sound (h : s.FieldsLaw) : s.fieldsSound ∧ s.watchdogSound ∧ s.pollsSound ∧ s.emissionSound :=
  ⟨⟨h.params, fun e he => (recordSound_iff e.2).1 (h.fields e he)⟩, h.watchdog, h.polls, h.emission⟩

theorem engine (h : s.FieldsLaw) (hs : s.accountsSuspended = false) : s.EngineSound :=
  ⟨h.records, paramsBound_of_sound h.params, h.costs, h.fields, h.waiters hs⟩

/-- Only a sector reset between its steps 2 and 3 suspends the accounts (log 12). -/
theorem not_suspended (hf : ∀ tag k, s.mu.inFlight ≠ some (.sectorReset tag k)) : s.accountsSuspended = false := by
  unfold State.accountsSuspended
  split
  · next tag k hk => exact absurd hk (hf tag k)
  · rfl

theorem not_suspended_of_idle (hf : s.mu.inFlight = none) : s.accountsSuspended = false :=
  not_suspended fun tag k hk => by rw [hf] at hk; cases hk

/-- A sector reset past its first step stands in CONFIG (R13). -/
theorem not_suspended_of_mode (h : s.FieldsLaw) (hm : s.si.mode ≠ .config) : s.accountsSuspended = false := by
  unfold State.accountsSuspended
  split
  · next tag k hk =>
    by_contra hc
    have two : k = 2 := by simpa using hc
    exact hm (h.reset tag k hk (by omega))
  · rfl

/-- What reaches no record, neither the wait list, the profiles, the parameters, the command in flight, the mode, the watchdog
nor the emission owed. -/
theorem congr (h : s.FieldsLaw) (htt : t.tt.records = s.tt.records) (hac : t.ac.waitList = s.ac.waitList) (hlm : t.lm = s.lm)
    (hp : t.params = s.params) (hf : t.mu.inFlight = s.mu.inFlight) (hm : t.si.mode = s.si.mode)
    (hw : t.si.watchdog = s.si.watchdog) (hd : t.paths.emissionDue = s.paths.emissionDue) : t.FieldsLaw := by
  have same := State.record?_congr (s := s) (t := t) htt
  refine ⟨(State.recordsSound_congr (by simp only [State.ids, htt])).2 h.records, ?_, hlm ▸ h.costs, ?_, ?_, ?_, ?_, ?_, ?_, ?_⟩
  · rw [State.paramsSound, hp]; exact h.params
  · simpa only [State.tableInFlight, hf] using h.table
  · rw [htt]; exact h.fields
  · simpa only [State.accountsSuspended, State.waitersWait, hf, hac, same] using h.waiters
  · rw [hf, hm]; exact h.reset
  · rw [State.watchdogSound, hw, hm, hp]; exact h.watchdog
  · rw [State.pollsSound, hm, htt]; exact h.polls
  · rw [State.emissionSound, hd]; exact h.emission

theorem notify (h : s.FieldsLaw) (kind : NoticeKind) (id : Option Nat) (values : List Int) :
    (s.notify kind id values).FieldsLaw :=
  h.congr (by simp) (by simp) (by simp) (by simp) (by simp) (by simp) (by simp) (by simp)

theorem reply (h : s.FieldsLaw) (tag code : Byte) (r : Reply) : (s.reply tag code r).FieldsLaw :=
  h.congr rfl rfl rfl rfl rfl rfl rfl rfl

/-- Records and wait list changed, the rest of what the law reads kept. -/
theorem of_engine (h : s.FieldsLaw) (he : t.EngineSound) (hpolls : t.pollsSound) (hp : t.params = s.params)
    (hf : t.mu.inFlight = s.mu.inFlight) (hm : t.si.mode = s.si.mode) (hw : t.si.watchdog = s.si.watchdog)
    (hd : t.paths.emissionDue = s.paths.emissionDue) : t.FieldsLaw := by
  refine ⟨he.records, ?_, he.costs, ?_, he.fields, fun _ => he.waiters, ?_, ?_, hpolls, ?_⟩
  · rw [State.paramsSound, hp]; exact h.params
  · simpa only [State.tableInFlight, hf] using h.table
  · rw [hf, hm]; exact h.reset
  · rw [State.watchdogSound, hw, hm, hp]; exact h.watchdog
  · rw [State.emissionSound, hd]; exact h.emission

/-- An operation on records in RUN, where polls may be outstanding. -/
theorem of_engineOnly (h : s.FieldsLaw) (hm : s.si.mode = .run) (ho : s.EngineOnly t) (he : t.EngineSound) : t.FieldsLaw :=
  h.of_engine he (fun hn => absurd (ho.mode.trans hm) hn) ho.params ho.inFlight ho.mode ho.watchdog (by rw [ho.paths])

theorem engine_of_run (h : s.FieldsLaw) (hm : s.si.mode = .run) : s.EngineSound :=
  h.engine (h.not_suspended_of_mode (by rw [hm]; simp))

/-! ### Modes -/

/-- RUN is left: the watchdog is disarmed and no poll stays outstanding (R10). -/
theorem leaveRun (h : s.FieldsLaw) (hm : s.si.mode = .run) {m : Mode} (hne : m ≠ .run) : (s.leaveRun m).FieldsLaw := by
  have cleared : s.cancelPolls.EngineSound :=
    (h.engine_of_run hm).updateAll (fun _ _ hr => hr.withOutstanding none) fun _ _ hw => hw
  have flight : ∀ tag k, s.mu.inFlight = some (.sectorReset tag k) → 1 ≤ k → m = .config := fun tag k hk hle => by
    have := h.reset tag k hk hle
    rw [hm] at this
    cases this
  refine ⟨cleared.records, h.params, cleared.costs, h.table, cleared.fields, fun _ => cleared.waiters, flight, ?_, ?_,
    h.emission⟩
  · simp [State.watchdogSound, State.leaveRun, State.cancelPolls, hne]
  · intro _ e he
    obtain ⟨e', _, rfl⟩ := List.mem_map.1 he
    rfl

theorem watchdog_of_mode (h : s.FieldsLaw) (hm : s.si.mode ≠ .run) : s.si.watchdog = none := by
  rw [h.watchdog, if_neg hm]

/-! ### The command in flight -/

/-- A command comes into flight, moves on or ends, no accounts being suspended before. -/
theorem setInFlight (h : s.FieldsLaw) (hs : s.accountsSuspended = false) {c : Option InFlight}
    (hr : ∀ tag k, c = some (.sectorReset tag k) → k = 0) (ht : ∀ tag t k, c = some (.loadProfiles tag t k) → CostsBounded t) :
    (s.setInFlight c).FieldsLaw :=
  { h with
    table := by
      rcases c with _ | c
      · simp [State.tableInFlight]
      · cases c
        case loadProfiles tag t k =>
          intro u hu
          cases hu
          exact ht tag t k rfl
        all_goals simp [State.tableInFlight]
    waiters := fun _ => h.waiters hs
    reset := fun tag k hk hle => by
      have := hr tag k hk
      omega }

theorem complete (h : s.FieldsLaw) (hs : s.accountsSuspended = false) (tag code : Byte) (r : Reply) :
    (s.complete tag code r).FieldsLaw :=
  (h.setInFlight hs (fun _ _ hc => by cases hc) fun _ _ _ hc => by cases hc).reply tag code r

/-! ### LOAD_PROFILES and the RUN entry -/

theorem installProfiles (h : s.FieldsLaw) (hs : s.accountsSuspended = false) {t : List ProfileEntry} (ht : CostsBounded t)
    (k : Nat) : (s.installProfiles t k).FieldsLaw := by
  have loaded : State.EngineSound { s with lm := { profiles := t } } := { h.engine hs with costs := ht }
  refine h.of_engine (t := s.installProfiles t k) (loaded.updateAll (fun id r hr => ?_) fun id r hw => ?_)
    (State.pollsSound_updateAll (s := { s with lm := { profiles := t } }) h.polls fun id r hr => ?_) rfl rfl rfl rfl rfl
  · split
    · exact hr.reclamp t
    · exact hr
  · split
    · simp only [reclamp]; split <;> exact hw
    · exact hw
  · split
    · simp only [reclamp]; split <;> exact hr
    · exact hr

theorem reclampAll (h : s.FieldsLaw) : s.reclampAll.FieldsLaw := by
  unfold State.reclampAll
  split
  · next tag t k hf =>
    have idle : s.accountsSuspended = false := not_suspended fun _ _ hk => by rw [hf] at hk; cases hk
    have table : CostsBounded t := h.table t (by simp [State.tableInFlight, hf])
    exact (h.installProfiles idle table k).complete idle _ _ _
  · exact h

theorem entryStage (h : s.FieldsLaw) (hs : s.accountsSuspended = false) (stage : Nat) : (s.entryStage stage).FieldsLaw := by
  have engine := h.engine hs
  unfold State.entryStage
  split
  · refine h.of_engine (engine.updateAll (fun _ _ hr => hr.reclamp _) fun _ r hw => ?_)
      (State.pollsSound_updateAll h.polls fun _ r hr => ?_) rfl rfl rfl rfl rfl
    · simp only [reclamp]; split <;> exact hw
    · simp only [reclamp]; split <;> exact hr
  · refine h.of_engine ((engine.updateAll (f := fun _ => recosted s.lm.profiles) (fun _ _ hr => hr.recosted h.costs)
      fun _ r hw => ?_).setSum _) (State.pollsSound_updateAll (f := fun _ => recosted s.lm.profiles) h.polls fun _ r hr => ?_)
      rfl rfl rfl rfl rfl
    · simp only [recosted]; split <;> exact hw
    · simp only [recosted]; split <;> exact hr
  · have staged : s.applyStaged.FieldsLaw := by
      simp only [State.applyStaged]
      split
      · exact h
      · exact h.congr rfl rfl rfl rfl rfl rfl rfl rfl
    simp only [State.entryLevel, State.announceBudget]
    split
    · exact staged.congr rfl rfl rfl rfl rfl rfl rfl rfl
    · exact notify (staged.congr (t := State.computeBudget (State.setHeld s.applyStaged.computeRaw _)) rfl rfl rfl rfl rfl rfl rfl rfl) _ _ _
  · have only := s.engineOnly_shedCheck false
    refine h.of_engine (engine.shedCheck false) ?_ only.params only.inFlight only.mode only.watchdog (by rw [only.paths])
    exact markerClosed_pollsSound.shedCheck s false h.polls
  · exact h

end State.FieldsLaw

end Sys2Proof.Machine
end

section
/-! The law of the fields under provisioning, the commands of a cell and the sector reset, and the step that keeps it. -/

namespace Sys2Proof.Machine

open Sys2Proof

theorem mem_assocPut {α : Type} {l : List (Nat × α)} {key : Nat} {v : α} {e : Nat × α} (h : e ∈ assocPut l key v) :
    e = (key, v) ∨ e ∈ l := by
  induction l with
  | nil => exact .inl (by simpa [assocPut] using h)
  | cons x l ih =>
    simp only [assocPut] at h
    split_ifs at h
    · exact List.mem_cons.1 h
    · exact (List.mem_cons.1 h).imp_right (List.mem_cons_of_mem _)
    · rcases List.mem_cons.1 h with rfl | h
      · exact .inr (List.mem_cons_self ..)
      · exact (ih h).imp_right (List.mem_cons_of_mem _)

/-- What the checks of R23 let through. -/
theorem entryFailure_eq_none {s : State} {e : ProvEntry} (h : s.entryFailure e = none) :
    e.id ≠ 0 ∧ e.addr ≠ 0 ∧ e.load.toNat ≤ 4095 ∧ e.ceiling.toNat ≤ 7 := by
  simp only [State.entryFailure] at h
  split_ifs at h with hid hv
  simp only [entryValuesOk, Bool.not_eq_false, Bool.and_eq_true, bne_iff_ne, decide_eq_true_eq] at hv
  exact ⟨hid, hv.1.1.1, hv.1.2, hv.2⟩

/-- AC's part of a sector reset, as one change of its state (R119, R140). -/
theorem State.resetAdmission_eq (s : State) : s.resetAdmission = { s with ac := { s.ac with
    rawLevel := 0, heldLevel := 0, holdCounter := 0, storm := none, banks := s.ac.staged.getD s.ac.banks
    staged := none, effLevel := 0, committedSum := 0, waitList := [], shedNote := []
    bEff := (s.ac.staged.getD s.ac.banks).getD 0 0 - s.params.pMin * s.params.pollLength } } := by
  rcases hs : s.ac.staged with _ | banks
  · simp only [State.resetAdmission, State.resetBudget, State.applyStaged, hs]
    simp only [State.computeBudget, State.levelNow, effectiveLevel, effectiveBudget, regionSize, Option.getD_none]
  · simp only [State.resetAdmission, State.resetBudget, State.applyStaged, hs]
    simp only [State.computeBudget, State.levelNow, effectiveLevel, effectiveBudget, regionSize, Option.getD_some]

namespace State.EngineSound

variable {s : State}

/-- A new record takes its place by ascending ID (R24). -/
theorem create (h : s.EngineSound) {id : Nat} {r : Record} (hid : 1 ≤ id ∧ id ≤ Config.maxId) (hr : RecordSound r)
    (hn : s.record? id = none) : (s.setRecords (assocPut s.tt.records id r)).EngineSound := by
  refine ⟨⟨keys_assocPut_sorted h.records.1 _ _, fun k hk => ?_⟩, h.params, h.costs, fun e he => ?_, fun k hk => ?_⟩
  · rcases (mem_keys_assocPut _ _ _ k).1 hk with rfl | hk
    · exact hid
    · exact h.records.2 k hk
  · rcases mem_assocPut he with rfl | he
    · exact hr
    · exact h.fields e he
  · obtain ⟨q, hq, hw⟩ := h.waiters k hk
    have other : k ≠ id := fun hc => by rw [hc, hn] at hq; cases hq
    exact ⟨q, (assocGet_assocPut _ _ _ k).trans ((if_neg other).trans hq), hw⟩

/-- A record removed with its place on the wait list (R27). -/
theorem remove (h : s.EngineSound) (id : Nat) :
    ((s.leaveWaitList id).setRecords (assocErase s.tt.records id)).EngineSound := by
  have kept {e : Nat × Record} (he : e ∈ assocErase s.tt.records id) : e ∈ s.tt.records := List.mem_of_mem_filter he
  refine ⟨⟨?_, fun k hk => ?_⟩, h.params, h.costs, fun e he => h.fields e (kept he), fun k hk => ?_⟩
  · exact List.Pairwise.sublist (List.filter_sublist.map _) h.records.1
  · obtain ⟨e, he, rfl⟩ := List.mem_map.1 hk
    exact h.records.2 _ (List.mem_map.2 ⟨e, kept he, rfl⟩)
  · obtain ⟨q, hq, hw⟩ := h.waiters k (List.mem_of_mem_filter hk)
    have other : k ≠ id := fun hc => not_mem_leaveWaitList s id (hc ▸ hk)
    exact ⟨q, (assocGet_assocErase _ _ k).trans ((if_neg other).trans hq), hw⟩

end State.EngineSound

namespace State.FieldsLaw

variable {s t : State}

/-- A change of records and wait list alone. -/
theorem of_records (h : s.FieldsLaw) (he : t.EngineSound) (hpolls : t.pollsSound) (hp : t.params = s.params)
    (hf : t.mu = s.mu) (hm : t.si = s.si) (hd : t.paths = s.paths) : t.FieldsLaw :=
  h.of_engine he hpolls hp (by rw [hf]) (by rw [hm]) (by rw [hm]) (by rw [hd])

/-! ### Provisioning -/

theorem reorderWaiting (h : s.FieldsLaw) (hs : s.accountsSuspended = false) (old : Cls) (id : Nat) :
    (s.reorderWaiting old id).FieldsLaw := by
  simp only [State.reorderWaiting]
  split
  · next hl =>
    obtain ⟨r, hr, hw⟩ := h.waiters hs id hl.2
    exact h.of_records (((h.engine hs).leaveWaitList id).joinWaitList (r := r) hr hw) h.polls rfl rfl rfl rfl
  · exact h

theorem applyEntry (h : s.FieldsLaw) (hs : s.accountsSuspended = false) {e : ProvEntry} (he : s.entryFailure e = none) :
    (s.applyEntry e).FieldsLaw := by
  obtain ⟨hid, haddr, hload, hceiling⟩ := entryFailure_eq_none he
  have range : 1 ≤ e.id.toNat ∧ e.id.toNat ≤ Config.maxId := by
    have := e.id.isLt
    have : e.id.toNat ≠ 0 := fun hc => hid (BitVec.eq_of_toNat_eq hc)
    simp only [Config.maxId]
    omega
  have engine := h.engine hs
  unfold State.applyEntry
  dsimp only
  split
  · next hn =>
    have created := engine.create range (recordSound_newRecord s.si.markerCount haddr hload hceiling) hn
    have polls : (s.setRecords (assocPut s.tt.records e.id.toNat (newRecord s.si.markerCount e))).pollsSound :=
      fun hm x hx => by
        rcases mem_assocPut hx with rfl | hx
        · rfl
        · exact h.polls hm x hx
    exact h.of_records (created.congr rfl rfl rfl rfl) polls rfl rfl rfl rfl
  · next r _ =>
    have state : ∀ q, (reprovisioned s.lm.profiles e q).state = q.state ∧
        (reprovisioned s.lm.profiles e q).outstanding = q.outstanding := fun q => by
      simp only [reprovisioned, reclamp]
      split <;> exact ⟨rfl, rfl⟩
    have replaced : (s.update e.id.toNat (reprovisioned s.lm.profiles e)).FieldsLaw :=
      h.of_records (engine.change (fun q hq => (engine.record hq).reprovisioned _ haddr hload hceiling) fun q => (state q).1)
        (State.pollsSound_update h.polls _ fun q hq => (state q).2.trans hq) rfl rfl rfl rfl
    exact (replaced.reorderWaiting hs r.cls e.id.toNat).congr rfl rfl rfl rfl rfl rfl rfl rfl

theorem nextEntry (h : s.FieldsLaw) : s.nextEntry.FieldsLaw := by
  unfold State.nextEntry
  split
  · next tag es applied hf =>
    have idle : s.accountsSuspended = false := not_suspended fun _ _ hk => by rw [hf] at hk; cases hk
    split
    · exact h
    · next e _ =>
      split
      · exact h.complete idle _ _ _
      · next he =>
        have same : (s.applyEntry e).mu.inFlight = s.mu.inFlight := (State.QueuesUntouched.applyEntry s e).inFlight
        have still : (s.applyEntry e).accountsSuspended = false := by
          simpa only [State.accountsSuspended, same] using idle
        have applied := h.applyEntry idle he
        dsimp only
        split
        · exact applied.complete still _ _ _
        · exact applied.setInFlight still (fun _ _ hc => by cases hc) fun _ _ _ hc => by cases hc
  · exact h

/-! ### Commands that complete at arrival -/

theorem onRecord (h : s.FieldsLaw) {id : Byte} {f : Nat → Record → State × Reply}
    (hf : ∀ r, s.record? id.toNat = some r → (f id.toNat r).1.FieldsLaw) : (s.onRecord id f).1.FieldsLaw := by
  simp only [State.onRecord]
  split
  · exact h
  · split
    · exact h
    · next r hr => exact hf r hr

theorem unloadCommand (h : s.FieldsLaw) (hs : s.accountsSuspended = false) (id : Byte) : (s.unloadCommand id).1.FieldsLaw :=
  h.onRecord fun r _ => by
    split
    · exact h
    · have removed := (h.engine hs).remove id.toNat
      have polls : ((s.leaveWaitList id.toNat).setRecords (assocErase s.tt.records id.toNat)).pollsSound :=
        fun hm e he => h.polls hm e (List.mem_of_mem_filter he)
      simp only [State.removeRecord]
      split <;> exact h.of_records (removed.congr rfl rfl rfl rfl) polls rfl rfl rfl rfl

/-- A record held, its place on the wait list given up where it had one. -/
theorem held (h : s.FieldsLaw) (hs : s.accountsSuspended = false) {u : State} {id : Nat} {r : Record}
    (hr : s.record? id = some r) {f : Record → Record} (hf : RecordSound (f r)) (ho : ∀ q, (f q).outstanding = none)
    (hu : u = s ∨ ∃ sum, u = s.setSum sum) :
    ((if r.state.waiting = true then u.leaveWaitList id else u).update id f).FieldsLaw := by
  have engine : u.EngineSound ∧ u.FieldsLaw ∧ u.record? id = some r := by
    rcases hu with rfl | ⟨sum, rfl⟩
    · exact ⟨h.engine hs, h, hr⟩
    · exact ⟨(h.engine hs).setSum sum, h.congr rfl rfl rfl rfl rfl rfl rfl rfl, hr⟩
  obtain ⟨he, hl, hur⟩ := engine
  split
  · exact hl.of_records ((he.leaveWaitList id).update (State.recordIs_of_record? hur hf)
      fun hm => absurd hm (State.EngineSound.not_mem_leaveWaitList u id))
      (State.pollsSound_update hl.polls id fun q _ => ho q) rfl rfl rfl rfl
  · next hw =>
    exact hl.of_records (he.move (State.recordIs_of_record? hur ⟨hf, by simpa using hw⟩))
      (State.pollsSound_update hl.polls id fun q _ => ho q) rfl rfl rfl rfl

theorem holdCommand (h : s.FieldsLaw) (hs : s.accountsSuspended = false) (id : Byte) : (s.holdCommand id).1.FieldsLaw :=
  h.onRecord fun r hr => by
    have record := (h.engine hs).record hr
    have reentry (hst : r.state = .lost ∨ r.state = .polling ∨ r.state = .admitWait) :
        (s.holdReentry id.toNat r).FieldsLaw :=
      (h.held hs hr (record.heldFromReentry hst) (fun _ => rfl) (.inl rfl)).notify _ _ _
    have service (hst : r.state ≠ .lost ∧ r.state ≠ .ranging) : (s.holdService id.toNat r).FieldsLaw := by
      simp only [State.holdService]
      refine (h.held hs hr (record.heldFromService hst.1 hst.2) (fun _ => rfl) ?_).notify _ _ _
      split
      · exact .inr ⟨_, rfl⟩
      · exact .inl rfl
    cases hst : r.state with
    | held => exact h
    | ranging =>
      exact h.of_records ((h.engine hs).change (f := fun r => { r with holdReq := true })
        (State.recordIs_of_record? hr (record.withHoldReq true hst)) fun _ => rfl)
        (State.pollsSound_update h.polls _ fun _ hq => hq) rfl rfl rfl rfl
    | lost => exact reentry (.inl hst)
    | polling => exact reentry (.inr (.inl hst))
    | admitWait => exact reentry (.inr (.inr hst))
    | confirming => exact service (by simp [hst])
    | inService => exact service (by simp [hst])
    | fading => exact service (by simp [hst])
    | shed => exact service (by simp [hst])

theorem releaseCommand (h : s.FieldsLaw) (hs : s.accountsSuspended = false) (id : Byte) :
    (s.releaseCommand id).1.FieldsLaw :=
  h.onRecord fun r hr => by
    have record := (h.engine hs).record hr
    split
    · next hst =>
      exact h.of_records ((h.engine hs).move (f := releasedRecord s.si.markerCount)
        (State.recordIs_of_record? hr ⟨record.releasedRecord _ hst, by rw [hst]; rfl⟩))
        (State.pollsSound_update h.polls _ fun _ hq => hq) rfl rfl rfl rfl
    · split
      · next hst =>
        exact h.of_records ((h.engine hs).change (f := fun r => { r with holdReq := false })
          (State.recordIs_of_record? hr (record.withHoldReq false hst.1)) fun _ => rfl)
          (State.pollsSound_update h.polls _ fun _ hq => hq) rfl rfl rfl rfl
      · exact h

theorem forceLossCommand (h : s.FieldsLaw) (id : Byte) : (s.forceLossCommand id).1.FieldsLaw := by
  simp only [State.forceLossCommand]
  split
  · exact h
  · next hm =>
    have run : s.si.mode = .run := by simpa using hm
    refine h.onRecord fun r hr => ?_
    split
    · exact h
    · exact h.of_engineOnly run (s.engineOnly_lose _ _) ((h.engine_of_run run).lose_granting _ (.inr (.inl rfl)))

theorem cancelReentryCommand (h : s.FieldsLaw) (id : Byte) : (s.cancelReentryCommand id).1.FieldsLaw := by
  simp only [State.cancelReentryCommand]
  split
  · exact h
  · next hm =>
    have run : s.si.mode = .run := by simpa using hm
    have engine := h.engine_of_run run
    exact h.onRecord fun r hr => h.of_engineOnly run (s.engineOnly_update _ _)
      (engine.change (f := fun r => { r with cancelReq := true }) (fun _ hq => (engine.record hq).withCancelReq true) fun _ => rfl)

theorem loadSectorParametersCommand (h : s.FieldsLaw) {values : List Half} (hl : values.length = 27) :
    (s.loadSectorParametersCommand values).1.FieldsLaw := by
  simp only [State.loadSectorParametersCommand]
  split
  · exact h
  · next hm =>
    have config : s.si.mode = .config := by simpa using hm
    split
    · exact h
    · next hv =>
      have loaded : (paramsOf (values.map BitVec.toNat)).values = values.map BitVec.toNat :=
        values_paramsOf (by rw [List.length_map, hl])
      have off : s.si.watchdog = none := h.watchdog_of_mode (by rw [config]; simp)
      exact { h with
        params := by
          simp only [State.paramsSound, loaded, hv]
        watchdog := by
          simp only [State.watchdogSound, config, off]
          rfl }

/-! ### SECTOR_RESET -/

theorem resetSi (h : s.FieldsLaw) : s.resetSi.FieldsLaw := by
  have config {u : State} (hu : u.FieldsLaw) (hm : u.si.mode ≠ .run) : State.FieldsLaw { u with
      si := { u.si with mode := .config, markerCount := 0, watchdog := none, sticky := Sticky.clear } } :=
    { hu with reset := fun _ _ _ _ => rfl, watchdog := rfl, polls := fun _ => hu.polls hm }
  simp only [State.resetSi]
  split
  · next hm => exact config (h.leaveRun hm (by simp)) (by simp [State.leaveRun, State.cancelPolls])
  · next hm => exact config h hm

/-- The next step of a sector reset. Between steps 2 and 3 the accounts are suspended, and step 3 empties the wait list. -/
theorem nextResetStep (h : s.FieldsLaw) : s.nextResetStep.FieldsLaw := by
  unfold State.nextResetStep
  split
  case h_2 => exact h
  next tag k hf =>
  have config (hk : 1 ≤ k) : s.si.mode = .config := h.reset tag k hf hk
  have waits (hk : k ≠ 2) : s.waitersWait := h.waiters (by simp [State.accountsSuspended, hf, hk])
  split
  · exact h.complete (by simp [State.accountsSuspended, hf]; omega) _ _ _
  · next hk =>
    have step : k = 0 ∨ k = 1 ∨ k = 2 ∨ k = 3 ∨ k = 4 ∨ k = 5 := by omega
    rcases step with rfl | rfl | rfl | rfl | rfl | rfl
    · have mode : s.resetSi.si.mode = .config := rfl
      have idle : s.resetSi.accountsSuspended = false := by
        have same : s.resetSi.mu = s.mu := by
          simp only [State.resetSi]
          split <;> rfl
        simp [State.accountsSuspended, same, hf]
      exact { h.resetSi with
        table := fun t ht => by cases ht
        waiters := fun _ => h.resetSi.waiters idle
        reset := fun _ _ _ _ => mode }
    · have records : s.resetRecords.recordsSound := (State.recordsSound_congr (s.ids_updateAll _)).2 h.records
      have fields : ∀ e ∈ s.resetRecords.tt.records, RecordSound e.2 := fun e he => by
        obtain ⟨e', he', rfl⟩ := List.mem_map.1 he
        dsimp only
        split
        · exact (h.fields e' he').resetHeldRecord
        · exact (h.fields e' he').resetRecord
      have polls : s.resetRecords.pollsSound := State.pollsSound_updateAll h.polls fun _ r hr => by
        split
        · exact hr
        · rfl
      exact { h with
        records := records
        table := fun t ht => by cases ht
        fields := fields
        waiters := fun hs => by cases hs
        reset := fun _ _ _ _ => config (le_refl 1)
        polls := polls }
    · have reset : s.resetStep (2 + 1) = s.resetAdmission := rfl
      rw [reset, State.resetAdmission_eq]
      exact { h with
        table := fun t ht => by cases ht
        waiters := fun _ id hid => by cases hid
        reset := fun _ _ _ _ => config (by omega) }
    · exact { h with
        table := fun t ht => by cases ht
        waiters := fun _ => waits (by omega)
        reset := fun _ _ _ _ => config (by omega) }
    · exact { h with
        table := fun t ht => by cases ht
        waiters := fun _ => waits (by omega)
        reset := fun _ _ _ _ => config (by omega) }
    · exact { h with
        table := fun t ht => by cases ht
        waiters := fun _ => waits (by omega)
        reset := fun _ _ _ _ => config (by omega) }

end State.FieldsLaw

end Sys2Proof.Machine
end

section
/-! The law of the fields: carrying out a command, the ports and the marker, and the step. -/

namespace Sys2Proof.Machine

open Sys2Proof

/-- What the checks of R48 let through bounds the costs. -/
theorem costsBounded_of_profileFailure {t : List ProfileEntry} (h : profileFailure t = none) : CostsBounded t := by
  simp only [profileFailure] at h
  split_ifs at h with hr
  simp only [Bool.not_eq_false, List.all_eq_true] at hr
  intro e he
  have range := hr e he
  simp only [profileInRange, Bool.and_eq_true, decide_eq_true_eq] at range
  exact ⟨range.1.1.2, range.2⟩

namespace State.FieldsLaw

variable {s t : State}

/-! ### Carrying out a command -/

/-- A SECTOR_RESET first ends the command in flight (R49, R167, R169). -/
theorem abortInFlight (h : s.FieldsLaw) (hn : ∀ tag k, s.mu.inFlight ≠ some (.sectorReset tag k)) :
    s.abortInFlight.FieldsLaw ∧ s.abortInFlight.accountsSuspended = false := by
  have idle := not_suspended hn
  unfold State.abortInFlight
  split
  · exact ⟨h.complete idle _ _ _, rfl⟩
  · next tag t k hf =>
    have table : CostsBounded t := h.table t (by simp [State.tableInFlight, hf])
    exact ⟨(h.installProfiles idle table k).complete idle _ _ _, rfl⟩
  · exact ⟨h.complete idle _ _ _, rfl⟩
  · exact ⟨h, idle⟩

/-- The row of SET_MODE by the requested value and the mode (R10, R11). -/
theorem setModeCommand (h : s.FieldsLaw) (hs : s.accountsSuspended = false) (tag requested : Byte) :
    (s.setModeCommand tag requested).1.FieldsLaw := by
  unfold State.setModeCommand
  split
  · exact h
  · next hm => exact h.leaveRun hm (by simp)
  · next hm =>
    have off := h.watchdog_of_mode (by rw [hm]; simp)
    exact { h with
      reset := fun _ _ _ _ => rfl
      watchdog := off
      polls := fun _ => h.polls (by rw [hm]; simp) }
  · exact h.setInFlight hs (fun _ _ hc => by cases hc) fun _ _ _ hc => by cases hc
  · exact h
  · exact h
  · exact h

theorem loadProfilesCommand (h : s.FieldsLaw) (hs : s.accountsSuspended = false) (tag : Byte) (w : List ProfileWire) :
    (s.loadProfilesCommand tag w).1.FieldsLaw := by
  simp only [State.loadProfilesCommand]
  split
  · exact h
  · split
    · exact h
    · next ht =>
      exact h.setInFlight hs (fun _ _ hc => by cases hc) fun _ _ _ hc => by
        cases hc
        exact costsBounded_of_profileFailure ht

theorem sectorResetCommand (h : s.FieldsLaw) (tag : Byte) (through : Nat) :
    (s.sectorResetCommand tag through).1.FieldsLaw := by
  unfold State.sectorResetCommand
  split
  · exact h
  · next hn =>
    obtain ⟨aborted, idle⟩ := h.abortInFlight fun tag k hk => hn tag k hk
    refine repeatOp_kept (fun _ hu => nextResetStep hu) _ (aborted.setInFlight idle (fun _ _ hc => ?_) fun _ _ _ hc => ?_)
    · cases hc; rfl
    · cases hc

/-- A change that the law does not read. -/
theorem loadBudgetCommand (h : s.FieldsLaw) (banks : List Half) : (s.loadBudgetCommand banks).1.FieldsLaw := by
  simp only [State.loadBudgetCommand]
  split
  · exact h.congr rfl rfl rfl rfl rfl rfl rfl rfl
  · exact h

theorem loadLevelTableCommand (h : s.FieldsLaw) (ths : List Half) (levelHold : Byte) :
    (s.loadLevelTableCommand ths levelHold).1.FieldsLaw := by
  simp only [State.loadLevelTableCommand]
  split_ifs
  · exact h
  · exact h.congr rfl rfl rfl rfl rfl rfl rfl rfl
  · exact h

theorem loadFiltersCommand (h : s.FieldsLaw) (a b r : FilterWire) : (s.loadFiltersCommand a b r).1.FieldsLaw := by
  simp only [State.loadFiltersCommand]
  split
  · exact h
  · split
    · exact h.congr rfl rfl rfl rfl rfl rfl rfl rfl
    · exact h

theorem stormCommand (h : s.FieldsLaw) (level : Byte) : (s.stormCommand level).1.FieldsLaw := by
  simp only [State.stormCommand]
  split <;> exact h.congr rfl rfl rfl rfl rfl rfl rfl rfl

theorem unlistedReadCommand (h : s.FieldsLaw) : s.unlistedReadCommand.1.FieldsLaw := by
  simp only [State.unlistedReadCommand]
  split <;> exact h

theorem unlistedReleaseCommand (h : s.FieldsLaw) : s.unlistedReleaseCommand.1.FieldsLaw := by
  simp only [State.unlistedReleaseCommand]
  split
  · exact h
  · exact h.congr rfl rfl rfl rfl rfl rfl rfl rfl

theorem readSectorCommand (h : s.FieldsLaw) (acknowledge : Byte) : (s.readSectorCommand acknowledge).1.FieldsLaw := by
  simp only [State.readSectorCommand]
  split
  · exact h
  · exact h.congr rfl rfl rfl rfl rfl rfl rfl rfl
  · exact h

theorem setNoticeMaskCommand (h : s.FieldsLaw) (enables : List Byte) : (s.setNoticeMaskCommand enables).1.FieldsLaw := by
  simp only [State.setNoticeMaskCommand]
  split
  · exact h.congr rfl rfl rfl rfl rfl rfl rfl rfl
  · exact h

/-- A command with none in flight before it, or a sector reset, by its own rules. -/
theorem perform (h : s.FieldsLaw) (tag : Byte) {c : Command}
    (hf : s.mu.inFlight = none ∨ ∃ through, c = .sectorReset through) (hl : c.lengthOk = true) :
    (s.perform tag c).1.FieldsLaw := by
  have idle (hc : ∀ through, c ≠ .sectorReset through) : s.accountsSuspended = false :=
    not_suspended_of_idle (hf.resolve_right fun ⟨through, ht⟩ => hc through ht)
  cases c with
  | setMode v => exact h.setModeCommand (idle (by simp)) tag v
  | loadTerminals es => exact h.setInFlight (idle (by simp)) (fun _ _ hc => by cases hc) fun _ _ _ hc => by cases hc
  | unload id => exact h.unloadCommand (idle (by simp)) id
  | readTerminal id => exact h.onRecord fun _ _ => h
  | hold id => exact h.holdCommand (idle (by simp)) id
  | release id => exact h.releaseCommand (idle (by simp)) id
  | forceLoss id => exact h.forceLossCommand id
  | cancelReentry id => exact h.cancelReentryCommand id
  | loadProfiles t => exact h.loadProfilesCommand (idle (by simp)) tag t
  | loadBudget b => exact h.loadBudgetCommand b
  | loadLevelTable ths hold => exact h.loadLevelTableCommand ths hold
  | loadFilters a b r => exact h.loadFiltersCommand a b r
  | loadSectorParameters v => exact h.loadSectorParametersCommand (by simpa [Command.lengthOk] using hl)
  | storm l => exact h.stormCommand l
  | unlistedRead => exact h.unlistedReadCommand
  | unlistedRelease => exact h.unlistedReleaseCommand
  | unlistedClearOverrun => exact h.congr rfl rfl rfl rfl rfl rfl rfl rfl
  | readSector a => exact h.readSectorCommand a
  | setNoticeMask m => exact h.setNoticeMaskCommand m
  | sectorReset through => exact h.sectorResetCommand tag through

theorem carryOut (h : s.FieldsLaw) (tag : Byte) {c : Command}
    (hf : s.mu.inFlight = none ∨ ∃ through, c = .sectorReset through) (hl : c.lengthOk = true) :
    (s.carryOut tag c).FieldsLaw := by
  have performed := h.perform tag hf hl
  simp only [State.carryOut]
  split
  · next u r hu =>
    rw [hu] at performed
    exact performed.reply _ _ _
  · next u hu =>
    rw [hu] at performed
    exact performed

theorem takeCommand (h : s.FieldsLaw) (tag : Byte) (c : Command) : (s.takeCommand tag c).FieldsLaw := by
  simp only [State.takeCommand]
  split
  · exact h.reply _ _ _
  · next hb =>
    split
    · exact h.reply _ _ _
    · next hl =>
      exact h.carryOut tag ((State.busyFor_eq_false (by simpa using hb)).imp_right Command.eq_sectorReset_of_code)
        (by simpa using hl)

theorem takeCell (h : s.FieldsLaw) (payload : List Byte) : (s.takeCell payload).FieldsLaw := by
  simp only [State.takeCell]
  split
  · split
    · exact h.reply _ _ _
    · next hb =>
      split
      · exact h.reply _ _ _
      · exact h.reply _ _ _
      · next c hc =>
        refine h.carryOut _ ((State.busyFor_eq_false (by simpa using hb)).imp_right fun hcode => ?_) (readCommand_lengthOk hc)
        exact ⟨7, readCommand_sectorReset (hcode ▸ hc)⟩
  · exact h.congr rfl rfl rfl rfl rfl rfl rfl rfl

/-! ### The ports -/

/-- The emission that is owed, and nothing else the law reads (R179). -/
theorem emitted (h : s.FieldsLaw) : s.settleEmission.FieldsLaw := by
  rcases hd : s.paths.emissionDue with _ | e
  · rwa [State.settleEmission_of_none hd]
  · rw [State.settleEmission_of_some hd]
    exact { h with emission := fun e he => by cases he }

/-- An end-of-frame report that is sent owes an emission with the E in force (R171). -/
theorem clearUs (h : s.FieldsLaw) (eof : Bool) : (s.clearUs eof).FieldsLaw := by
  have range := (paramsBound_of_sound h.params).noticesPerReport
  refine { h with emission := fun e he => ?_ }
  cases eof
  · cases he
  · cases he; exact range

theorem powerOn (s : State) : s.powerOn.FieldsLaw := by
  have reset : State.reset.FieldsLaw :=
    State.fieldsLaw_of_sound State.reset_ledgerSound (by decide) (by decide) (by decide) (by decide) (by decide)
  exact reset.congr rfl rfl rfl rfl rfl rfl rfl rfl

theorem resetFalls (h : s.FieldsLaw) : s.resetFalls.FieldsLaw := by
  rw [State.resetFalls_eq]
  exact { h with emission := fun e he => by cases he }

/-! ### Markers, maps and reports -/

theorem markerInRun (h : s.FieldsLaw) (hm : s.si.mode = .run) : s.markerInRun.FieldsLaw := by
  have counted : s.countMarker.FieldsLaw := { h with
    watchdog := by
      have armed : s.countMarker.si.watchdog = some s.params.watchdogTime := rfl
      rw [State.watchdogSound, armed, if_pos (show s.countMarker.si.mode = .run from hm)]
      rfl }
  have only := s.countMarker.engineOnly_react (Config.markerPicks s.raceTick) (Config.cancelRank s.raceTick)
  exact counted.of_engine (h.engine_of_run hm).markerInRun (fun hn => absurd (only.mode.trans hm) hn) only.params
    only.inFlight only.mode only.watchdog (congrArg Paths.emissionDue only.paths)

/-- A marker in COASTING is one in RUN after the mode and FRAME_REGAINED (R15). -/
theorem takeMarker (h : s.FieldsLaw) (frame : FrameNumber) : (s.takeMarker frame).FieldsLaw := by
  simp only [State.takeMarker]
  split
  · exact h.congr rfl rfl rfl rfl rfl rfl rfl rfl
  · next hm => exact markerInRun (h.congr (t := s.recordFrame frame) rfl rfl rfl rfl rfl rfl rfl rfl) hm
  · next hm =>
    have engine := h.engine (h.not_suspended_of_mode (by rw [hm]; simp))
    have only := State.engineOnly_notify ((s.setMode .run).recordFrame frame) .frameRegained none []
    generalize hu : ((s.setMode .run).recordFrame frame).notify .frameRegained none [] = u at only ⊢
    have run : u.si.mode = .run := only.mode
    have sound : u.EngineSound := by
      rw [← hu]
      exact State.EngineSound.notify (s := (s.setMode .run).recordFrame frame) (engine.congr rfl rfl rfl rfl) _ _ _
    have inFlight : u.mu.inFlight = s.mu.inFlight := only.inFlight
    -- The watchdog is armed by the count of the same marker.
    have counted : u.countMarker.FieldsLaw := by
      refine ⟨sound.records, ?_, sound.costs, ?_, sound.fields, fun _ => sound.waiters, fun tag k hk hle => ?_, ?_,
        fun hn => absurd run hn, ?_⟩
      · have same : u.params = s.params := only.params
        change failingField u.params.values = none
        rw [same]; exact h.params
      · have same : u.countMarker.tableInFlight = s.tableInFlight := by
          simp only [State.tableInFlight, State.countMarker_mu, inFlight]
        rw [same]; exact h.table
      · have config := h.reset tag k (inFlight ▸ hk) hle
        rw [hm] at config
        cases config
      · have armed : u.countMarker.si.watchdog = some u.params.watchdogTime := rfl
        rw [State.watchdogSound, armed, if_pos (show u.countMarker.si.mode = .run from run)]
        rfl
      · have same : u.paths = s.paths := only.paths
        change ∀ e ∈ u.paths.emissionDue, 1 ≤ e ∧ e ≤ 8
        rw [same]; exact h.emission
    have react := u.countMarker.engineOnly_react (Config.markerPicks u.raceTick) (Config.cancelRank u.raceTick)
    exact counted.of_engine sound.markerInRun (fun hn => absurd (react.mode.trans run) hn) react.params
      react.inFlight react.mode react.watchdog (congrArg Paths.emissionDue react.paths)

theorem setHeader (h : s.FieldsLaw) (x : HeaderState) : (s.setHeader x).FieldsLaw := h.congr rfl rfl rfl rfl rfl rfl rfl rfl

theorem setUnlisted (h : s.FieldsLaw) (queue : List UnlistedEntry) : (s.setUnlisted queue).FieldsLaw :=
  h.congr rfl rfl rfl rfl rfl rfl rfl rfl

theorem contention (h : s.FieldsLaw) (hm : s.si.mode = .run) (b : Burst) : (s.contention b).FieldsLaw := by
  simp only [State.contention]
  split
  · split
    · exact h.of_engineOnly hm (s.engineOnly_contentionListed _ _) ((h.engine_of_run hm).contentionListed _ _)
    · simp only [State.screen, State.enqueueUnlisted]
      split_ifs
      · exact h.setUnlisted _
      · exact (h.setUnlisted _).notify _ _ _
      · exact h
      · exact notify (h.congr (t := s.setOverrun true) rfl rfl rfl rfl rfl rfl rfl rfl) _ _ _
      · exact h
  · exact h

theorem editedMap (h : s.FieldsLaw) (hm : s.si.mode = .run) (es : List MapEntry) (frame : FrameNumber) (ids : List Nat)
    (polls slots : Nat) : (((s.reportRegion es).setOutstanding frame ids).setMapFigures polls slots).FieldsLaw := by
  have reported : (s.reportRegion es).FieldsLaw ∧ (s.reportRegion es).si.mode = .run := by
    simp only [State.reportRegion]
    split
    · exact ⟨h, hm⟩
    · exact ⟨(h.notify _ _ _).congr rfl rfl rfl rfl rfl rfl rfl rfl, by simp [hm]⟩
  obtain ⟨law, run⟩ := reported
  have placed : ((s.reportRegion es).setOutstanding frame ids).EngineSound :=
    (law.engine_of_run run).updateAll (fun id r hr => by
      split
      · exact hr.withOutstanding (some frame)
      · exact hr) fun id r hw => by
      split
      · exact hw
      · exact hw
  exact law.of_records (placed.congr rfl rfl rfl rfl) (fun hn => absurd run hn) rfl rfl rfl rfl

theorem emitMessage (h : s.FieldsLaw) (hm : s.si.mode = .run) (id : Nat) :
    (s.update id (emittedRecord s.params.confirmTimeout)).FieldsLaw :=
  h.of_engineOnly hm (s.engineOnly_update _ _) ((h.engine_of_run hm).change
    (fun _ hr => ((h.engine_of_run hm).record hr).emittedRecord (paramsBound_of_sound h.params).confirmTimeout) fun _ => rfl)

/-! ### Expiries and the RUN entry -/

theorem watchdogExpires (h : s.FieldsLaw) : s.watchdogExpires.FieldsLaw := by
  simp only [State.watchdogExpires]
  split
  · next hm => exact ((h.leaveRun hm.1 (by simp)).notify _ _ _).congr rfl rfl rfl rfl rfl rfl rfl rfl
  · exact h

/-- A visit at which a countdown may end, in RUN alone (log 4). -/
theorem visit (h : s.FieldsLaw) {id : Nat} {ends : Record → Bool} {t : Record → State}
    (ht : ∀ r, s.record? id = some r → ends r = true → s.EngineOnly (t r) ∧ (s.EngineSound → (t r).EngineSound)) :
    (s.withRecord id fun r => s.ifEnds (ends r) (t r)).FieldsLaw := by
  rcases hr : s.record? id with _ | r
  · rwa [State.withRecord_vacant hr]
  · rw [State.withRecord_of_record? hr, State.ifEnds]
    split
    · next hm =>
      obtain ⟨only, engine⟩ := ht r hr hm.2
      exact h.of_engineOnly hm.1 only (engine (h.engine_of_run hm.1))
    · exact h

theorem expireHoldOff (h : s.FieldsLaw) (id : Nat) : (s.expireHoldOff id).FieldsLaw :=
  h.visit fun r hr hends => ⟨s.engineOnly_update _ _, fun engine => engine.move (State.recordIs_of_record? hr
    ⟨(engine.record hr).holdOffVisit _, by
      simp only [holdOffEnds, Bool.and_eq_true, beq_iff_eq] at hends
      rw [hends.1]; rfl⟩)⟩

theorem expireProbation (h : s.FieldsLaw) (id : Nat) : (s.expireProbation id).FieldsLaw :=
  h.visit fun r hr _ => ⟨s.engineOnly_update _ _, fun engine => engine.change
    (State.recordIs_of_record? hr (engine.record hr).probationVisit) fun q => by
      simp only [probationVisit]
      split <;> rfl⟩

theorem expireConfirmTimer (h : s.FieldsLaw) (id : Nat) : (s.expireConfirmTimer id).FieldsLaw :=
  h.visit fun _ _ _ => ⟨s.engineOnly_confirmVisit id, fun engine => engine.confirmVisit id⟩

theorem expireStorm (h : s.FieldsLaw) : s.expireStorm.FieldsLaw := by
  simp only [State.expireStorm, State.ifEnds, State.countStorm]
  split_ifs
  · split
    · exact h
    · split
      · exact notify (h.congr (t := s.setStorm none) rfl rfl rfl rfl rfl rfl rfl rfl) _ _ _
      · exact h.congr rfl rfl rfl rfl rfl rfl rfl rfl
  · exact h

theorem expireLevelHold (h : s.FieldsLaw) : s.expireLevelHold.FieldsLaw := by
  simp only [State.expireLevelHold, State.ifEnds]
  split
  · exact h.congr rfl rfl rfl rfl rfl rfl rfl rfl
  · exact h

theorem nextEntryStage (h : s.FieldsLaw) (last : Nat) : (State.nextEntryStage last s).FieldsLaw := by
  unfold State.nextEntryStage
  split
  · next tag stage hf =>
    have idle : s.accountsSuspended = false := not_suspended fun _ _ hk => by rw [hf] at hk; cases hk
    split
    · exact h
    · split
      · exact { h with
          table := fun t ht => by cases ht
          waiters := fun _ => h.waiters idle
          reset := fun _ _ hk => by cases hk
          watchdog := rfl
          polls := fun hn => absurd rfl hn }
      · have same := (State.QueuesUntouched.entryStage s (stage + 1)).inFlight
        refine (h.entryStage idle (stage + 1)).setInFlight ?_ (fun _ _ hc => by cases hc) fun _ _ _ hc => by cases hc
        simpa only [State.accountsSuspended, same] using idle
  · exact h

/-- What each part of a step makes of the law. -/
theorem keptByParts : State.KeptByParts State.FieldsLaw where
  queue _ h := h.congr rfl rfl rfl rfl rfl rfl rfl rfl
  race h := h.congr rfl rfl rfl rfl rfl rfl rfl rfl
  ports _ _ hd h := h.congr rfl rfl rfl rfl rfl rfl rfl hd
  powerOn _ := powerOn _
  resetFalls := resetFalls
  reserve _ _ h := h.congr rfl rfl rfl rfl rfl rfl rfl rfl
  wait _ h := h.congr rfl rfl rfl rfl rfl rfl rfl rfl
  discard _ h := h.congr rfl rfl rfl rfl rfl rfl rfl rfl
  cell payload _ h := (h.setHeader _).takeCell payload
  command tag c _ h := (h.setHeader _).takeCommand tag c
  marker frame h := h.takeMarker frame
  malformed _ _ h := (h.notify _ _ _).congr rfl rfl rfl rfl rfl rfl rfl rfl
  edited es frame ids polls slots hm h := h.editedMap hm es frame ids polls slots
  emitted id hm h := h.emitMessage hm id
  grantReport id o snr hm h := h.of_engineOnly hm (State.engineOnly_grantReport _ _ _ _) ((h.engine_of_run hm).grantReport id o snr)
  pollReport select id frame m hm h :=
    h.of_engineOnly hm (State.engineOnly_pollReport _ _ _ _ _) ((h.engine_of_run hm).pollReport select id frame m)
  contention b hm h := h.contention hm b
  endFrame select frame hm h :=
    h.of_engineOnly hm (State.engineOnly_endFrame _ _ _) ((h.engine_of_run hm).endFrame select frame)
  emission := emitted
  sent _ h := h.congr rfl rfl rfl rfl rfl rfl rfl rfl
  cleared eof h := h.clearUs eof
  watchdog := watchdogExpires
  entryStage last h := h.nextEntryStage last
  entry := nextEntry
  reclamp := reclampAll
  holdOff id h := h.expireHoldOff id
  probation id h := h.expireProbation id
  confirmTimer id h := h.expireConfirmTimer id
  storm := expireStorm
  levelHold := expireLevelHold
  resetStep := nextResetStep

end State.FieldsLaw

/-- Settles O57: the law of the fields, with what it takes of the account and the settings, is kept by every part of a step. -/
theorem fieldsKeptByEveryStep : Obligations.FieldsKeptByEveryStep :=
  fun _ _ hl hset hf hw hp he hstep =>
    (State.FieldsLaw.keptByParts.step (State.fieldsLaw_of_sound hl hset hf hw hp he) hstep).sound

end Sys2Proof.Machine
end

section
/-! SET_MODE by the current mode (R11), and the expiries (R16, log 4), each where its condition holds and where it fails. -/

namespace Sys2Proof.Machine

open Sys2Proof

/-! ## Commands of cells -/

/-- The row of a command whose lists have their lengths, on a ready part (R163, R164). -/
theorem exec_of_commandReady {row : Instr} {tag : Byte} {c : Command} (hrow : row.dsItem? = some (.command tag c))
    (hl : c.lengthOk = true) {s : State} (hs : s.commandReady) :
    exec row s = .next ((s.cellRemoved 0).carryOut tag c) := by
  rw [exec_of_dsItem? hrow, State.receiveDs_commandReady hs tag hl]

/-- A command that has its reply is carried out and answered (R164). -/
theorem State.carryOut_of_reply {s t : State} {tag : Byte} {c : Command} {r : Reply} (h : s.perform tag c = (t, some r)) :
    s.carryOut tag c = t.reply tag c.code r := by simp only [State.carryOut, h]

theorem State.carryOut_of_none {s t : State} {tag : Byte} {c : Command} (h : s.perform tag c = (t, none)) :
    s.carryOut tag c = t := by simp only [State.carryOut, h]

/-- What SET_MODE answers in each mode, for a value that names one. -/
theorem exec_setMode {s t : State} {tag v : Byte} {row : Instr} (hrow : row.dsItem? = some (.command tag (.setMode v)))
    (hs : s.commandReady) {r : Reply} (h : (s.cellRemoved 0).setModeCommand tag v = (t.cellRemoved 0, some r)) :
    exec row s = .next (t.answered tag 0x01 r) := by
  rw [exec_of_commandReady hrow rfl hs, State.carryOut_of_reply (c := .setMode v) (t := t.cellRemoved 0) h]
  exact congrArg Host.Outcome.next (t.reply_cellRemoved tag 0x01 r)

/-- A value that names no mode is answered BAD_VALUE in every mode. -/
theorem State.setModeCommand_badValue (s : State) (tag : Byte) {v : Byte} (h : 2 ≤ v.toNat) :
    s.setModeCommand tag v = (s, some { status := .badValue }) := by
  obtain ⟨n, hn⟩ : ∃ n, v.toNat = n + 2 := ⟨v.toNat - 2, by omega⟩
  simp only [State.setModeCommand, hn]

/-- Settles O11, mode by mode. -/
theorem setModeByCurrentMode : Obligations.SetModeByCurrentMode := by
  intro s tag hs
  refine ⟨fun hm => ⟨?_, ?_⟩, fun hm => ⟨?_, ?_⟩, fun hm => ⟨?_, ?_⟩, fun v hv => ?_⟩
  · exact exec_setMode (t := s) rfl hs (by simp [State.setModeCommand, hm]; rfl)
  · rw [exec_of_commandReady (c := .setMode 0x01) rfl rfl hs]
    refine congrArg Host.Outcome.next (State.carryOut_of_none ?_)
    simp [State.perform, State.setModeCommand, hm, State.setInFlight]
  · refine exec_setMode (t := _) rfl hs ?_
    simp only [State.setModeCommand, State.cellRemoved_si, hm]
    rfl
  · exact exec_setMode (t := s) rfl hs (by simp [State.setModeCommand, hm]; rfl)
  · refine exec_setMode (t := _) rfl hs ?_
    simp only [State.setModeCommand, State.cellRemoved_si, hm]
    rfl
  · exact exec_setMode (t := s) rfl hs (by simp [State.setModeCommand, hm])
  · have read : readCommand 0x01 [v] = .command (.setMode v) := rfl
    rw [exec_of_dsItem? rfl, State.receiveDs_cell hs.1]
    have idle : (s.cellRemoved 0).busyFor 0x01 = false := by simp [State.busyFor, hs.2]
    simp only [State.takeCell, idle, read, Bool.false_eq_true, if_false]
    rw [State.carryOut_of_reply (c := .setMode v) (State.setModeCommand_badValue _ tag hv)]
    exact congrArg Host.Outcome.next (s.reply_cellRemoved tag 0x01 _)

/-! ## Expiries (log 4) -/

/-- While RESET_N is high a command is carried out (R18). -/
theorem next_whenUp {s t u : State} (hup : s.paths.resetLow = false) (h : t = u) :
    (.next (s.whenUp t) : Host.Outcome State Fault Refusal) = .next u := by rw [State.whenUp_up hup, h]

/-- An expiry whose condition holds takes place in RUN. -/
theorem State.ifEnds_of_run {s : State} (h : s.si.mode = .run) {ends : Bool} (he : ends = true) (s' : State) :
    s.ifEnds ends s' = s' := by simp [State.ifEnds, h, he]

/-- An expiry whose condition fails is without effect (log 4). -/
theorem State.ifEnds_of_not (s : State) {ends : Bool} (he : ends = false) (s' : State) : s.ifEnds ends s' = s := by
  simp [State.ifEnds, he]

/-- Outside RUN no expiry takes place (log 5). -/
theorem State.ifEnds_outside {s : State} (h : s.si.mode ≠ .run) (ends : Bool) (s' : State) : s.ifEnds ends s' = s := by
  simp [State.ifEnds, h]

/-- An expiry of one record outside RUN, whether or not its ID is provisioned. -/
theorem State.withRecord_ifEnds_outside {s : State} (h : s.si.mode ≠ .run) (id : Nat) (ends : Record → Bool) (s' : State) :
    (s.withRecord id fun r => s.ifEnds (ends r) s') = s := by
  simp only [State.withRecord, State.ifEnds_outside h]
  split <;> rfl

/-- An expiry of the watchdog while it is armed in RUN (R16). -/
theorem State.watchdogExpires_of_armed {s : State} (hm : s.si.mode = .run) (hw : s.si.watchdog.isSome) :
    s.watchdogExpires = ((s.leaveRun .coasting).notify .frameLost none []).setFrameLostSeen := if_pos ⟨hm, hw⟩

/-- The visit at which a confirm timer expires (R130). -/
theorem State.confirmVisit_of_expiry {s : State} {id : Nat} {r : Record} (hr : s.record? id = some r)
    (ht : r.confirmTimer = some 1) : s.confirmVisit id =
      if r.admitTries < s.params.admitTriesMax then s.update id retriedRecord else s.lose .confirmTimeout id := by
  simp only [State.confirmVisit, State.expireConfirm, State.withRecord_of_record? hr, ht, le_refl, if_true]

/-- The three expiries of one record, where its ID is provisioned. -/
theorem exec_recordExpiries {s : State} (hup : s.paths.resetLow = false) {id : Byte} {r : Record}
    (hr : s.record? id.toNat = some r) :
    exec (.holdOffExpiry id) s =
      .next (s.ifEnds (holdOffEnds r) (s.update id.toNat (holdOffVisit s.si.markerCount))) ∧
    exec (.probationExpiry id) s = .next (s.ifEnds (probationEnds r) (s.update id.toNat probationVisit)) ∧
    exec (.confirmTimerExpiry id) s = .next (s.ifEnds (confirmEnds r) (s.confirmVisit id.toNat)) := by
  refine ⟨?_, ?_, ?_⟩ <;> refine next_whenUp hup ?_
  · rw [State.expireHoldOff, State.withRecord_of_record? hr]
  · rw [State.expireProbation, State.withRecord_of_record? hr]
  · rw [State.expireConfirmTimer, State.withRecord_of_record? hr]

/-- Settles O51: the watchdog, the visits of one record, then the storm and the level hold. -/
theorem expiryVisits : Obligations.ExpiryVisits := by
  intro s hup hrec
  refine ⟨fun hm hw => ?_, fun hn => ?_, fun id r hr hm => ?_, fun hm st hst hend => ?_, fun hm hraw hcount => ?_,
    fun hm hst => ?_, fun hm hn => ?_, fun id hv => ?_, fun c hc hm => ?_⟩
  · exact next_whenUp hup (State.watchdogExpires_of_armed hm hw)
  · refine next_whenUp hup (if_neg ?_)
    rintro ⟨hm, hw⟩
    rcases hn with hn | hn
    · exact hn hm
    · simp [hn] at hw
  · obtain ⟨holdOff, probation, confirm⟩ := exec_recordExpiries hup hr
    rw [holdOff, probation, confirm]
    refine ⟨fun hl hz => ?_, fun hn => ?_, fun hc hp => ?_, fun hn => ?_, fun ht htries => ?_, fun ht htries => ?_,
      fun hn => ?_⟩
    · rw [State.ifEnds_of_run hm (by simp [holdOffEnds, hl, hz]), State.update_eq_put hrec hr]
      simp [holdOffVisit, hl, hz]
    · rw [State.ifEnds_of_not s (by rcases hn with hn | hn <;> simp [holdOffEnds, hn])]
    · rw [State.ifEnds_of_run hm (by simp [probationEnds, hc, hp]), State.update_eq_put hrec hr]
      simp [probationVisit, hc, hp]
    · rw [State.ifEnds_of_not s (by rcases hn with hn | hn <;> simp [probationEnds, hn])]
    · rw [State.ifEnds_of_run hm (by simp [confirmEnds, ht]), State.confirmVisit_of_expiry hr ht, if_pos htries,
        State.update_eq_put hrec hr]
      rfl
    · rw [State.ifEnds_of_run hm (by simp [confirmEnds, ht]), State.confirmVisit_of_expiry hr ht, if_neg (by omega)]
    · rw [State.ifEnds_of_not s (by simpa [confirmEnds] using hn)]
  · refine next_whenUp hup ?_
    rw [State.expireStorm, State.ifEnds_of_run hm (by simpa [stormEnds, hst] using hend)]
    simp [State.countStorm, hst, hend, State.setStorm]
  · refine next_whenUp hup ?_
    rw [State.expireLevelHold, State.ifEnds_of_run hm (by simp [levelHoldEnds, hraw, hcount])]
    simp [State.holdLevel, heldAfterMarker, Nat.not_le.2 hraw, hcount, State.setHeld]
  · refine next_whenUp hup (State.ifEnds_of_not s ?_ _)
    cases h : s.ac.storm with
    | none => simp [stormEnds, h]
    | some st => simpa [stormEnds, h] using hst st h
  · refine next_whenUp hup (State.ifEnds_of_not s ?_ _)
    simp only [levelHoldEnds, Bool.and_eq_false_iff, decide_eq_false_iff_not]
    omega
  · refine ⟨?_, ?_, ?_⟩ <;> exact next_whenUp hup (State.withRecord_vacant hv _)
  · rcases hc with rfl | rfl | ⟨id, rfl⟩ | ⟨id, rfl⟩ | ⟨id, rfl⟩ <;> refine next_whenUp hup ?_
    · exact State.ifEnds_outside hm _ _
    · exact State.ifEnds_outside hm _ _
    · exact State.withRecord_ifEnds_outside hm _ _ _
    · exact State.withRecord_ifEnds_outside hm _ _ _
    · exact State.withRecord_ifEnds_outside hm _ _ _

end Sys2Proof.Machine
end

section
/-! Emission of notices and the boundary on US-out (R6, R7, R179), and the bytes of the part's own cells (12.5, 12.6). -/

namespace Sys2Proof.Machine

open Sys2Proof

/-! ## The cells the part builds -/

/-- The length of a notice's values on the wire, six bytes each (12.6). -/
theorem flatMap_addressBytes_length (values : List Int) :
    (values.flatMap fun v => addressBytes (BitVec.ofInt 48 v)).length = 6 * values.length := by
  induction values with
  | nil => rfl
  | cons v values ih => simp only [List.flatMap_cons, List.length_append, ih, addressBytes_length, List.length_cons]; omega

/-- The flags byte of a notice (12.6). -/
theorem noticeFlags_eq (hasId gap : Bool) :
    bitsByte [hasId, gap] = (if hasId then 1 else 0) + (if gap then 2 else 0) := by
  cases hasId <;> cases gap <;> rfl

theorem PartCell.bytes_response (tag code : Byte) (status : Status) (failing remaining : Nat) (data : List Byte) :
    (PartCell.response tag code status failing remaining data).bytes =
      0x21 :: (halfBytes (BitVec.ofNat 16 (8 + data.length)) ++ tag :: code :: byteOf status.code :: byteOf failing ::
        byteOf remaining :: data) := by
  have length : 3 + (data.length + 5) = 8 + data.length := by omega
  simp only [PartCell.bytes, itemBytes, List.length_cons, length]

theorem PartCell.bytes_notice (n : Notice) :
    (PartCell.notice n).bytes =
      0x22 :: (halfBytes (BitVec.ofNat 16 (9 + 6 * n.values.length)) ++ byteOf n.kind.code :: (halfBytes n.frame ++
        ((if n.id.isSome then 1 else 0) + (if n.gap then 2 else 0)) :: byteOf (n.id.getD 0) :: byteOf n.values.length ::
        n.values.flatMap fun v => addressBytes (BitVec.ofInt 48 v))) := by
  have length : 3 + (2 + (6 * n.values.length + 1 + 1 + 1) + 1) = 9 + 6 * n.values.length := by omega
  simp only [PartCell.bytes, itemBytes, noticeFlags_eq, List.length_cons, List.length_append, halfBytes_length,
    flatMap_addressBytes_length, length]

/-! ## The boundary -/

/-- An emission settled owes nothing any more. -/
theorem State.settleEmission_idem (s : State) : s.settleEmission.settleEmission = s.settleEmission := by
  cases h : s.paths.emissionDue with
  | none => rw [State.settleEmission_of_none h, State.settleEmission_of_none h]
  | some e => rw [State.settleEmission_of_some h]; rfl

theorem State.settleEmission_resetLow (s : State) : s.settleEmission.paths.resetLow = s.paths.resetLow := by
  cases h : s.paths.emissionDue with
  | none => rw [State.settleEmission_of_none h]
  | some e => rw [State.settleEmission_of_some h]; rfl

/-- An emission owed comes before the boundary (R6, log 7). -/
theorem State.boundary_settled (select : Bool) (s : State) :
    State.boundary select s = State.boundary select s.settleEmission := by
  simp only [State.boundary, State.settleEmission_idem]

/-- The head cell goes before the forwarded item (R6). -/
theorem State.boundary_of_cell {s : State} (he : s.paths.emissionDue = none) {cell : PartCell} {rest : List PartCell}
    (hc : s.insertion.cells = cell :: rest) (select : Bool) : State.boundary select s =
      State.wakeDs { s with insertion := { s.insertion with cells := rest }
                            paths := { s.paths with usOut := s.paths.usOut ++ [cell.bytes] } } := by
  simp only [State.boundary, State.settleEmission_of_none he, hc]
  rfl

/-- The forwarded item goes where no cell waits, and US-in goes on (R6, R1). -/
theorem State.boundary_of_item {s : State} (he : s.paths.emissionDue = none) (hc : s.insertion.cells = [])
    {item : Passage} (hi : s.paths.usItem = some item) (select : Bool) : State.boundary select s =
      s.paths.usHeld.foldl (State.arriveUs select) { s with
        paths := { s.paths with usItem := none, usHeld := []
                                emissionDue := if item.eof then some s.params.noticesPerReport else none
                                usOut := s.paths.usOut ++ [item.bytes] } } := by
  simp only [State.boundary, State.settleEmission_of_none he, hc, hi]
  rfl

theorem State.boundary_of_nothing {s : State} (he : s.paths.emissionDue = none) (hc : s.insertion.cells = [])
    (hi : s.paths.usItem = none) (select : Bool) : State.boundary select s = s := by
  simp only [State.boundary, State.settleEmission_of_none he, hc, hi]

theorem State.wakeDs_of_not_waiting {s : State} (h : s.paths.header ≠ .waiting) : s.wakeDs = s := by
  simp [State.wakeDs, h]

/-- A waiting header takes the place that has become free, and DS-in goes on (R7, log 8). -/
theorem State.wakeDs_of_waiting {s : State} (h : s.paths.header = .waiting)
    (hp : s.insertion.cells.length + s.insertion.reserved < Config.insertionPlaces) :
    s.wakeDs = s.paths.dsHeld.foldl State.arriveDs { s with
      insertion := { s.insertion with reserved := s.insertion.reserved + 1 }
      paths := { s.paths with header := .reserved, dsHeld := [] } } := by
  have free : 0 < s.freePlaces := by simp only [State.freePlaces]; omega
  simp only [State.wakeDs, h, free, and_self, if_true]
  rfl

theorem State.wakeDs_of_full {s : State}
    (hp : Config.insertionPlaces ≤ s.insertion.cells.length + s.insertion.reserved) : s.wakeDs = s := by
  have free : ¬ 0 < s.freePlaces := by simp only [State.freePlaces]; omega
  simp [State.wakeDs, free]

/-! ## What is sent on US-out stays sent -/

theorem State.contention_usOut (s : State) (b : Burst) : (s.contention b).paths.usOut = s.paths.usOut := by
  simp only [State.contention]
  split
  · split
    · exact congrArg Paths.usOut (s.engineOnly_contentionListed _ _).paths
    · simp only [State.screen, State.enqueueUnlisted]
      split_ifs <;> simp only [State.notify_paths, State.setUnlisted_paths, State.setOverrun_paths]
  · rfl

theorem State.readyUs_usOut (s : State) (bytes : List Byte) (eof : Bool) :
    (s.readyUs bytes eof).paths.usOut = s.paths.usOut := rfl

theorem State.routeUs_usOut (select : Bool) (s : State) (i : UsItem) :
    (State.routeUs select s i).paths.usOut = s.paths.usOut := by
  cases i with
  | burst kind b =>
    simp only [State.routeUs]
    split
    · rw [State.readyUs_usOut, (s.engineOnly_grantReport _ _ _).paths]
    · rfl
  | poll b =>
    simp only [State.routeUs]
    split
    · exact congrArg Paths.usOut (State.engineOnly_pollReport select s _ _ _).paths
    · rfl
  | contention b =>
    simp only [State.routeUs]
    split
    · exact s.contention_usOut b
    · rfl
  | endOfFrame frame tail =>
    simp only [State.routeUs]
    split
    · rw [State.readyUs_usOut, (State.engineOnly_endFrame select s frame).paths]
    · rfl
  | raw bytes => rfl
  | cut bytes => rfl

theorem State.settleEmission_usOut (s : State) : s.settleEmission.paths.usOut = s.paths.usOut := by
  cases h : s.paths.emissionDue with
  | none => rw [State.settleEmission_of_none h]
  | some e => rw [State.settleEmission_of_some h]; rfl

theorem State.arriveUs_usOut (select : Bool) (s : State) (i : UsItem) :
    (State.arriveUs select s i).paths.usOut = s.paths.usOut := by
  simp only [State.arriveUs]
  split
  · rfl
  · rw [State.routeUs_usOut, State.settleEmission_usOut]

theorem exec_usOutBoundary {s t : State} (hup : s.paths.resetLow = false)
    (h : State.boundary Config.selectAfterFailedKeepalive s = t) : exec .usOutBoundary s = .next t := next_whenUp hup h

theorem exec_noticeEmission {s : State} (hup : s.paths.resetLow = false) :
    exec .noticeEmission s = .next s.settleEmission := next_whenUp hup rfl

/-- Settles O52: the bytes of the cells, the emission, and the boundary in each of its cases. -/
theorem boundaryOnUsOut : Obligations.BoundaryOnUsOut := by
  refine ⟨⟨PartCell.bytes_response, PartCell.bytes_notice, rfl, rfl⟩, fun s hup => ⟨fun he => ?_, fun e he => ⟨?_, ?_⟩,
    fun he => ⟨fun cell rest hc hn => ?_, fun cell rest hc hw hd hp => ?_, fun cell rest hc hw => ⟨fun hp => ?_, fun hp => ?_⟩,
      fun hc hi => ?_, fun item hc hi hd => ?_, fun item hc hi => ?_, fun item hc hi => ?_⟩⟩⟩
  · rw [exec_noticeEmission hup, State.settleEmission_of_none he]
  · rw [exec_noticeEmission hup, State.settleEmission_of_some he]
    rfl
  · simp only [exec_noticeEmission hup]
    rw [exec_usOutBoundary hup (State.boundary_settled _ s),
      exec_usOutBoundary (s.settleEmission_resetLow.trans hup) rfl]
  · exact exec_usOutBoundary hup ((State.boundary_of_cell he hc _).trans (State.wakeDs_of_not_waiting hn))
  · rw [exec_usOutBoundary hup (State.boundary_of_cell he hc _), State.wakeDs_of_waiting (by exact hw) (by exact hp)]
    simp only [hd, List.foldl_nil]
  · exact exec_usOutBoundary hup ((State.boundary_of_cell he hc _).trans (State.wakeDs_of_waiting hw hp))
  · exact exec_usOutBoundary hup ((State.boundary_of_cell he hc _).trans (State.wakeDs_of_full hp))
  · exact exec_usOutBoundary hup (State.boundary_of_nothing he hc hi _)
  · refine exec_usOutBoundary hup ((State.boundary_of_item he hc hi _).trans ?_)
    simp only [hd, List.foldl_nil]
  · exact ⟨_, exec_usOutBoundary hup (State.boundary_of_item he hc hi _)⟩
  · refine ⟨_, exec_usOutBoundary hup (State.boundary_of_item he hc hi _), ?_⟩
    exact foldl_kept (P := fun t : State => t.paths.usOut = s.paths.usOut ++ [item.bytes])
      (fun t i ht => (State.arriveUs_usOut _ t i).trans ht) _ rfl

end Sys2Proof.Machine
end

section
/-! Items and map entries read back from their bytes (12.1 to 12.3, R182, R183). -/

namespace Sys2Proof

/-! ## Whole items -/

/-- The length an item's header declares is its own, where it fits the field. -/
theorem declaredLength_of_fits {kind : Byte} {body : List Byte} (h : (itemBytes kind body).length ≤ 65535) :
    declaredLength ((BitVec.ofNat 16 (3 + body.length)).extractLsb' 8 8)
      ((BitVec.ofNat 16 (3 + body.length)).extractLsb' 0 8) = (itemBytes kind body).length := by
  rw [itemBytes_length] at h ⊢
  exact declaredLength_itemBytes body h

/-- An item that declares its own length is not cut, on either path. -/
theorem ite_declared {α : Type} {kind : Byte} {body : List Byte} (h : (itemBytes kind body).length ≤ 65535) (cut whole : α) :
    (if declaredLength ((BitVec.ofNat 16 (3 + body.length)).extractLsb' 8 8)
      ((BitVec.ofNat 16 (3 + body.length)).extractLsb' 0 8) ≠ (itemBytes kind body).length then cut else whole) = whole :=
  if_neg (not_not.2 (declaredLength_of_fits h))

/-! ## Downstream items -/

theorem readDs_marker (frame : FrameNumber) (tail : List Byte) (h : (DsItem.marker frame tail).bytes.length ≤ 65535) :
    readDs (DsItem.marker frame tail).bytes = .marker frame tail :=
  (ite_declared h _ _).trans (congrArg (DsItem.marker · tail) (half_halfBytes frame))

theorem readDs_map (frame : FrameNumber) (count : Byte) (body : List Byte)
    (h : (DsItem.map frame count body).bytes.length ≤ 65535) :
    readDs (DsItem.map frame count body).bytes = .map frame count body :=
  (ite_declared h _ _).trans (congrArg (DsItem.map · count body) (half_halfBytes frame))

theorem readDs_control (offered : Byte) (messages : List Byte)
    (h : (DsItem.control offered messages).bytes.length ≤ 65535) :
    readDs (DsItem.control offered messages).bytes = .control offered messages := ite_declared h _ _

theorem readDs_cell (payload : List Byte) (h : (DsItem.cell payload).bytes.length ≤ 65535) :
    readDs (DsItem.cell payload).bytes = .cell payload := ite_declared h _ _

/-! ## Upstream items -/

theorem outcomeOf_outcomeCode (o : BurstOutcome) : outcomeOf (outcomeCode o) = some o := by cases o <;> rfl

/-- A burst report's body is read field by field, and routed by its burst kind. -/
theorem readUs_burstBody (kind : Byte) (b : Burst) (h : (itemBytes 0x11 (burstBody kind b)).length ≤ 65535) :
    readUs (itemBytes 0x11 (burstBody kind b)) = readBurst (itemBytes 0x11 (burstBody kind b)) kind (some b) := by
  refine (ite_declared h _ _).trans ?_
  refine congrArg (readBurst _ kind) ?_
  rw [outcomeOf_outcomeCode, Option.map_some]
  simp only [half_halfBytes]

theorem readUs_grant (kind : GrantKind) (b : Burst) (h : (UsItem.burst kind b).bytes.length ≤ 65535) :
    readUs (UsItem.burst kind b).bytes = .burst kind b := by
  refine (readUs_burstBody (grantCode kind) b h).trans ?_
  cases kind <;> rfl

theorem readUs_contention (b : Burst) (h : (UsItem.contention b).bytes.length ≤ 65535)
    (hg : b.outcome = .good → 6 ≤ b.tail.length) : readUs (UsItem.contention b).bytes = .contention b :=
  (readUs_burstBody 0x03 b h).trans (if_neg fun ⟨good, short⟩ => absurd (hg good) (by omega))

theorem readUs_endOfFrame (frame : FrameNumber) (tail : List Byte)
    (h : (UsItem.endOfFrame frame tail).bytes.length ≤ 65535) :
    readUs (UsItem.endOfFrame frame tail).bytes = .endOfFrame frame tail :=
  (ite_declared h _ _).trans (congrArg (UsItem.endOfFrame · tail) (half_halfBytes frame))

/-! ## Map entries -/

/-- A 24-bit field from its three bytes. -/
theorem append_extract_bytes (w : BitVec 24) :
    (w.extractLsb' 16 8 ++ w.extractLsb' 8 8 ++ w.extractLsb' 0 8 : BitVec 24) = w := by
  apply BitVec.eq_of_getLsbD_eq
  intro i hi
  interval_cases i <;> simp only [BitVec.getLsbD_append, BitVec.getLsbD_extractLsb'] <;> simp

theorem Machine.readMapEntries_bytes (e : Machine.MapEntry) (rest : List Byte) :
    Machine.readMapEntries (e.bytes ++ rest) = e :: Machine.readMapEntries rest := by
  have start : (e.start ++ e.length : BitVec 24).extractLsb' 12 12 = e.start := BitVec.extractLsb'_append_eq_left
  have length : (e.start ++ e.length : BitVec 24).extractLsb' 0 12 = e.length := BitVec.extractLsb'_append_eq_right
  simp only [Machine.MapEntry.bytes, List.cons_append, List.nil_append, Machine.readMapEntries, append_extract_bytes,
    start, length]

theorem Machine.readMapEntries_flatMap (es : List Machine.MapEntry) :
    Machine.readMapEntries (es.flatMap Machine.MapEntry.bytes) = es := by
  induction es with
  | nil => rfl
  | cons e es ih => rw [List.flatMap_cons, Machine.readMapEntries_bytes, ih]

/-- Settles O60, kind by kind. -/
theorem itemsReadBack : Obligations.ItemsReadBack :=
  ⟨readDs_marker, readDs_map, readDs_control, readDs_cell, readUs_grant, readUs_burstBody 0x02, readUs_contention,
    readUs_endOfFrame, Machine.readMapEntries_flatMap⟩

end Sys2Proof
end

section
/-! Unlisted stations (R22, R151 to R156): what the Station Map says of an address, and the report of an address it does not
list, in each of UQ's outcomes. -/

namespace Sys2Proof.Machine

open Sys2Proof

/-! ## The Station Map (R22) -/

theorem State.stationId_eq_none (s : State) (addr : Address) :
    s.stationId addr = none ↔ ∀ id, (id, addr) ∉ s.tt.stationMap := by
  simp only [State.stationId, Option.map_eq_none_iff, List.find?_eq_none, beq_iff_eq]
  constructor
  · exact fun h id hm => h _ hm rfl
  · rintro h ⟨id, a⟩ hm rfl
    exact h id hm

/-- A list in which no second component stands twice holds one entry for each. -/
theorem eq_of_mem_of_snd {α β : Type} {l : List (α × β)} (hn : (l.map (·.2)).Nodup) {a a' : α} {b : β} (h : (a, b) ∈ l)
    (h' : (a', b) ∈ l) : a = a' :=
  congrArg Prod.fst (List.inj_on_of_nodup_map hn h h' rfl)

theorem State.stationId_eq_some {s : State} (hs : s.stationMapSound) (addr : Address) (id : Nat) :
    s.stationId addr = some id ↔ (id, addr) ∈ s.tt.stationMap := by
  simp only [State.stationId, Option.map_eq_some_iff]
  constructor
  · rintro ⟨⟨k, a⟩, hf, rfl⟩
    obtain rfl : a = addr := by simpa using List.find?_some hf
    exact List.mem_of_find?_eq_some hf
  · intro hm
    cases hf : s.tt.stationMap.find? fun e => e.2 == addr with
    | none => exact absurd (beq_self_eq_true addr) (List.find?_eq_none.1 hf _ hm)
    | some e =>
      obtain rfl : e.2 = addr := by simpa using List.find?_some hf
      exact ⟨e, rfl, eq_of_mem_of_snd hs.2 (List.mem_of_find?_eq_some hf) hm⟩

/-! ## Screening (R151, R152) -/

theorem Filter.matchesAddress_iff (f : Filter) (addr : Address) :
    f.matchesAddress addr = true ↔ f.enabled = true ∧ (addr ^^^ f.code) &&& ~~~f.mask = 0 := by
  simp [Filter.matchesAddress]

theorem State.accepts_iff (s : State) (addr : Address) :
    s.accepts addr = true ↔ addr ≠ 0 ∧
      ((s.uq.acceptA.enabled = true ∧ (addr ^^^ s.uq.acceptA.code) &&& ~~~s.uq.acceptA.mask = 0) ∨
        (s.uq.acceptB.enabled = true ∧ (addr ^^^ s.uq.acceptB.code) &&& ~~~s.uq.acceptB.mask = 0)) ∧
      ¬ (s.uq.reject.enabled = true ∧ (addr ^^^ s.uq.reject.code) &&& ~~~s.uq.reject.mask = 0) := by
  simp only [State.accepts, Bool.and_eq_true, Bool.or_eq_true, Bool.not_eq_true', ← Bool.not_eq_true,
    Filter.matchesAddress_iff, bne_iff_ne, and_assoc]

/-- A power field is within the range it is clamped to (12.3, R153). -/
theorem clampPower_toInt (b : Byte) : clampPower b.toInt = b.toInt := by
  have low := BitVec.le_toInt b
  have high := BitVec.toInt_lt (x := b)
  simp only [clampPower, clamp]
  omega

theorem updatedEntry_burst (b : Burst) (e : UnlistedEntry) : updatedEntry b.frame (measurementOf b) e =
    { e with lastFrame := b.frame, snr := max (-40) (min 160 b.snr.toInt), timing := max (-2048) (min 2047 b.timing.toInt)
             power := b.power.toInt, seen := min 255 (e.seen + 1) } := by
  simp only [updatedEntry, measurementOf, clampPower_toInt]
  rfl

theorem newEntry_burst (b : Burst) (addr : Address) : newEntry addr b.frame (measurementOf b) =
    { addr := addr, firstFrame := b.frame, lastFrame := b.frame, snr := max (-40) (min 160 b.snr.toInt)
      timing := max (-2048) (min 2047 b.timing.toInt), power := b.power.toInt, seen := 1 } := by
  simp only [newEntry, measurementOf, clampPower_toInt]
  rfl

/-! ## Contention reports at the engine -/

theorem State.contention_of_not_good {s : State} {b : Burst} (h : b.outcome ≠ .good) : s.contention b = s := by
  unfold State.contention
  split
  · next hg _ => exact absurd hg h
  · rfl

theorem State.contention_of_unlisted {s : State} {b : Burst} {addr : Address} (hg : b.outcome = .good)
    (ha : b.address = some addr) (hn : s.stationId addr = none) :
    s.contention b = s.screen addr b.frame (measurementOf b) := by
  simp only [State.contention, hg, ha, hn]

/-- A report that can be routed is handled by the Station Map in RUN (R4, log 17). -/
theorem exec_contentionReportUnlisted {s : State} (hs : s.usEngine) {b : Burst}
    (ha : b.outcome = .good → b.address.isSome) : exec (.contentionReportUnlisted b) s = .next (s.contention b) := by
  rw [exec_of_usReady rfl hs.1]
  exact congrArg Host.Outcome.next (if_pos ⟨hs.2, ha⟩)

theorem State.enqueueUnlisted_of_queued {s : State} {addr : Address} (h : ∃ e ∈ s.uq.queue, e.addr = addr)
    (frame : FrameNumber) (m : Measurement) : s.enqueueUnlisted addr frame m =
      s.setUnlisted (s.uq.queue.map fun e => if e.addr = addr then updatedEntry frame m e else e) :=
  if_pos (by simpa using h)

theorem State.enqueueUnlisted_of_new {s : State} {addr : Address} (h : ∀ e ∈ s.uq.queue, e.addr ≠ addr)
    (frame : FrameNumber) (m : Measurement) : s.enqueueUnlisted addr frame m =
      if s.uq.queue.length < Config.unlistedPlaces then
        (s.setUnlisted (s.uq.queue ++ [newEntry addr frame m])).notify .unlistedArrived none
          [addr.toNat, s.uq.queue.length + 1, clampSnr m.snr]
      else if s.uq.overrun then s else (s.setOverrun true).notify .unlistedOverrun none [addr.toNat] :=
  if_neg (by simpa using h)

/-- Settles O42: the Station Map, then the report by its outcome, its acceptance and the queue. -/
theorem unlistedStationsAreScreened : Obligations.UnlistedStationsAreScreened := by
  refine ⟨State.stationId_eq_none, fun s addr id hs => State.stationId_eq_some hs addr id, fun s b hs =>
    ⟨fun hb => ?_, fun addr hg ha hn => ?_⟩⟩
  · rw [exec_contentionReportUnlisted hs fun hg => absurd hg hb, State.contention_of_not_good hb]
  · have screened : exec (.contentionReportUnlisted b) s = .next (s.screen addr b.frame (measurementOf b)) := by
      rw [exec_contentionReportUnlisted hs fun _ => by simp [ha], State.contention_of_unlisted hg ha hn]
    simp only [← s.accepts_iff]
    refine ⟨fun refused => ?_, fun accepted => ?_⟩
    · rw [screened, State.screen, if_neg refused]
    · rw [screened, State.screen, if_pos accepted]
      refine ⟨fun queued => ?_, fun absent => ⟨fun room => ?_, fun full overrun => ?_⟩⟩
      · rw [State.enqueueUnlisted_of_queued queued]
        simp only [updatedEntry_burst]
        rfl
      · rw [State.enqueueUnlisted_of_new absent, if_pos (by exact room), newEntry_burst]
        rfl
      · rw [State.enqueueUnlisted_of_new absent, if_neg (by exact Nat.not_lt.2 full), if_pos overrun]

end Sys2Proof.Machine
end

section
/-! A map that arrives in RUN (R8, R73 to R82): its structural check, and the edit as one change of the state. -/

namespace Sys2Proof.Machine

open Sys2Proof

/-! ## Notices and the tables they do not read -/

/-- A notice reads and changes neither TT nor MP. -/
theorem State.notify_withTables (s : State) (tt : Tt) (mp : Mp) (kind : NoticeKind) (id : Option Nat) (values : List Int) :
    State.notify { s with tt := tt, mp := mp } kind id values = { s.notify kind id values with tt := tt, mp := mp } := by
  simp only [State.notify, State.noticeEnabled]
  split_ifs <;> rfl

/-! ## The figures of an edited map (R82) -/

theorem insertSpan_perm (x : Nat × Nat) (l : List (Nat × Nat)) : (insertSpan x l).Perm (x :: l) := by
  induction l with
  | nil => exact .refl _
  | cons y l ih =>
    simp only [insertSpan]
    split
    · exact .refl _
    · exact (ih.cons y).trans (.swap _ _ _)

theorem sortSpans_perm (l : List (Nat × Nat)) : (l.foldr insertSpan []).Perm l := by
  induction l with
  | nil => exact .refl _
  | cons x l ih => exact (insertSpan_perm x _).trans (ih.cons x)

/-- The reclaimed slots are those of the stripped entries: sorting the spans drops none (R76, R82). -/
theorem State.reclaimedSlots_eq (s : State) (es : List MapEntry) : ((s.reclaimedSpans es).map (·.2)).sum =
    ((s.strippedEntries es).map fun e => min (e.start.toNat + e.length.toNat) 4096 - e.start.toNat).sum := by
  rw [State.reclaimedSpans, ((sortSpans_perm _).map _).sum_eq, List.map_map]
  rfl

/-- The records once the polls of a map have been placed, and the figures of the map (R81, R82). -/
theorem State.setOutstanding_setMapFigures (s : State) (frame : FrameNumber) (ids : List Nat) (polls slots : Nat) :
    (s.setOutstanding frame ids).setMapFigures polls slots = { s with
      tt := { s.tt with records := s.tt.records.map fun (e : Nat × Record) =>
        (e.1, { e.2 with outstanding := if e.1 ∈ ids then some frame else e.2.outstanding }) }
      mp := { pollsPlaced := polls, reclaimedSlots := slots } } := by
  have placed (e : Nat × Record) : (if e.1 ∈ ids then { e.2 with outstanding := some frame } else e.2) =
      { e.2 with outstanding := if e.1 ∈ ids then some frame else e.2.outstanding } := by
    split <;> rfl
  simp only [State.setOutstanding, State.updateAll, State.setRecords, State.setMapFigures, placed]

/-- The report of the overlapping entries stands apart from what the edit changes (R74). -/
theorem State.reportRegion_edited (s : State) (es : List MapEntry) (frame : FrameNumber) (ids : List Nat)
    (polls slots : Nat) : ((s.reportRegion es).setOutstanding frame ids).setMapFigures polls slots =
      ((s.setOutstanding frame ids).setMapFigures polls slots).reportRegion es := by
  have params : ((s.setOutstanding frame ids).setMapFigures polls slots).params = s.params := rfl
  simp only [State.reportRegion, params]
  cases es.filter (overlapsRegion s.params) with
  | nil => rfl
  | cons e rest =>
    simp only [State.setOutstanding_setMapFigures, State.notify_withTables]
    simp only [State.setRegionViolationSeen, State.notify_tt]

/-- A map in RUN on a ready port. -/
theorem exec_map_of_run {s : State} (hs : s.dsReady) (hm : s.si.mode = .run) (frame : FrameNumber) (count : Byte)
    (body : List Byte) : exec (.map frame count body) s = .next (s.takeMapInRun frame count body) := by
  rw [exec_of_dsReady rfl hs, State.routeDs, if_pos hm, State.cutHeader_of_none hs.2.1]

/-- Settles O43: the malformed map by its check, and the edit by `State.reportRegion_edited`. -/
theorem mapArrivesInRun : Obligations.MapArrivesInRun := by
  intro s frame count body hs hm
  refine ⟨fun bad => ?_, fun few whole => ?_⟩ <;> rw [exec_map_of_run hs hm]
  · exact congrArg Host.Outcome.next (if_pos bad)
  · have sound : ¬ (Config.mapEntries < count.toNat ∨ body.length ≠ 6 * count.toNat) := by
      rintro (many | cut)
      · exact absurd few (Nat.not_le.2 many)
      · exact cut whole
    rw [State.takeMapInRun, if_neg sound]
    dsimp only [State.editMap]
    rw [State.reportRegion_edited, State.reclaimedSlots_eq, State.setOutstanding_setMapFigures, State.reportRegion]
    dsimp only
    cases (readMapEntries body).filter (overlapsRegion s.params) <;> rfl

end Sys2Proof.Machine
end

section
/-! SECTOR_RESET (R13, R167, R172): its seven steps one by one and together, and the command it aborts. -/

namespace Sys2Proof.Machine

open Sys2Proof

/-! ## The steps (R172) -/

theorem repeatOp_succ (f : State → State) (n : Nat) (s : State) : repeatOp f (n + 1) s = f (repeatOp f n s) := by
  induction n generalizing s with
  | zero => rfl
  | succ n ih => exact ih (f s)

/-- A step below the seventh carries out its part and is noted as done. -/
theorem State.nextResetStep_of_lt {s : State} {tag : Byte} {k : Nat} (h : s.mu.inFlight = some (.sectorReset tag k))
    (hk : k < 6) : s.nextResetStep = (s.resetStep (k + 1)).setInFlight (some (.sectorReset tag (k + 1))) := by
  simp only [State.nextResetStep, h, Nat.not_le.2 hk, if_false]

/-- Step 7 places the response. -/
theorem State.nextResetStep_last {s : State} {tag : Byte} (h : s.mu.inFlight = some (.sectorReset tag 6)) :
    s.nextResetStep = s.completed tag 0x14 { status := .ok } := by
  simp only [State.nextResetStep, h, le_refl, if_true]
  rfl

/-- SI's part: the mode, the count, the watchdog, the sticky flags, and in RUN the polls (R13, R10). -/
theorem State.resetSi_eq (s : State) : s.resetSi = { s with
    si := { mode := .config, markerCount := 0, frameNumber := s.si.frameNumber, watchdog := none
            sticky := { frameLostSeen := false, mapMalformedSeen := false, regionViolationSeen := false,
                        noticesDropped := false } }
    tt := { s.tt with records := s.tt.records.map fun (e : Nat × Record) =>
      (e.1, { e.2 with outstanding := if s.si.mode = Mode.run then none else e.2.outstanding }) } } := by
  by_cases h : s.si.mode = .run
  · simp only [State.resetSi, h, if_true]
    rfl
  · have same : (s.tt.records.map fun e : Nat × Record => (e.1, { e.2 with outstanding := e.2.outstanding })) =
      s.tt.records := List.map_id _
    simp only [State.resetSi, h, if_false, same]
    rfl

/-- TT's part, record by record (R35, R36). -/
theorem State.resetRecords_eq (s : State) : s.resetRecords = { s with tt := { s.tt with
    records := s.tt.records.map fun (e : Nat × Record) => (e.1,
      if e.2.state = TState.held then { e.2 with message := none, cancelReq := false, outageStart := none }
      else { e.2 with
        state := TState.polling, fade := 0, avg := none, profile := 0, holdOff := 0, backoff := 0, probation := 0
        outageStart := none, cancelReq := false, misses := 0, nextEligible := 0, outstanding := none
        keepaliveDue := 0, attempts := 0, holdReq := false, lastTiming := 0, lastPower := 0, cost := 0
        confirmTimer := none, admitTries := 0, message := none, lastReason := .sectorReset }) } } := rfl

/-- Steps 1 to 6 together. -/
theorem State.resetSteps_eq (s : State) (tag : Byte) :
    repeatOp State.nextResetStep 6 (s.setInFlight (some (.sectorReset tag 0))) = { s with
      si := { mode := .config, markerCount := 0, frameNumber := s.si.frameNumber, watchdog := none
              sticky := { frameLostSeen := false, mapMalformedSeen := false, regionViolationSeen := false,
                          noticesDropped := false } }
      tt := { s.tt with records := s.tt.records.map fun (e : Nat × Record) => (e.1,
        if e.2.state = TState.held then
          { e.2 with message := none, cancelReq := false, outageStart := none
                     outstanding := if s.si.mode = Mode.run then none else e.2.outstanding }
        else { e.2 with
          state := TState.polling, fade := 0, avg := none, profile := 0, holdOff := 0, backoff := 0, probation := 0
          outageStart := none, cancelReq := false, misses := 0, nextEligible := 0, outstanding := none
          keepaliveDue := 0, attempts := 0, holdReq := false, lastTiming := 0, lastPower := 0, cost := 0
          confirmTimer := none, admitTries := 0, message := none, lastReason := .sectorReset }) }
      ac := { s.ac with
        rawLevel := 0, heldLevel := 0, holdCounter := 0, storm := none, banks := s.ac.staged.getD s.ac.banks
        staged := none, effLevel := 0, committedSum := 0, waitList := [], shedNote := []
        bEff := (s.ac.staged.getD s.ac.banks).getD 0 0 - s.params.pMin * s.params.pollLength }
      mp := { pollsPlaced := 0, reclaimedSlots := 0 }
      uq := { s.uq with queue := [], overrun := false }
      mu := { inFlight := some (.sectorReset tag 6), notices := [], gapPending := false, mask := s.mu.mask } } := by
  have step (u : State) (k : Nat) (hk : k < 6) : (u.setInFlight (some (.sectorReset tag k))).nextResetStep =
      ((u.setInFlight (some (.sectorReset tag k))).resetStep (k + 1)).setInFlight (some (.sectorReset tag (k + 1))) :=
    State.nextResetStep_of_lt rfl hk
  simp only [repeatOp, step _ 0 (by decide), step _ (0 + 1) (by decide), step _ (0 + 1 + 1) (by decide),
    step _ (0 + 1 + 1 + 1) (by decide), step _ (0 + 1 + 1 + 1 + 1) (by decide),
    step _ (0 + 1 + 1 + 1 + 1 + 1) (by decide)]
  simp only [State.resetStep, State.resetSi_eq, State.resetRecords_eq, State.resetAdmission_eq, State.resetNotices,
    State.setInFlight, State.setMapFigures, State.setUnlisted, State.setOverrun, List.map_map]
  rfl

/-! ## The command -/

/-- A SECTOR_RESET taken while no other is in flight aborts what is, and goes through its steps (R167, R172, log 12). -/
theorem exec_sectorReset {s : State} (hs : s.cellReady) (hn : ∀ tag k, s.mu.inFlight ≠ some (.sectorReset tag k)) (tag : Byte)
    (n : Nat) : exec (.sectorReset tag n) s = .next (repeatOp State.nextResetStep (max 1 n)
      ((s.cellRemoved 0).abortInFlight.setInFlight (some (.sectorReset tag 0)))) := by
  have idle : (s.cellRemoved 0).busyFor (Command.sectorReset n).code = false := by
    simp [State.busyFor, Command.code]
  have command : (s.cellRemoved 0).sectorResetCommand tag n = (repeatOp State.nextResetStep (max 1 n)
      ((s.cellRemoved 0).abortInFlight.setInFlight (some (.sectorReset tag 0))), none) := by
    unfold State.sectorResetCommand
    split
    · next tag' k hk => exact absurd hk (hn tag' k)
    · rfl
  rw [exec_of_dsItem? rfl, State.receiveDs_command hs, State.takeCommand, idle]
  exact congrArg Host.Outcome.next (State.carryOut_of_none (c := .sectorReset n) command)

theorem exec_sectorReset_of_ready {s : State} (hs : s.commandReady) (tag : Byte) (n : Nat) :
    exec (.sectorReset tag n) s = .next (repeatOp State.nextResetStep (max 1 n)
      ((s.cellRemoved 0).setInFlight (some (.sectorReset tag 0)))) := by
  have nothing : (s.cellRemoved 0).abortInFlight = s.cellRemoved 0 := by simp [State.abortInFlight, hs.2]
  rw [exec_sectorReset hs.1 (by simp [hs.2]), nothing]

/-! ## The command it aborts (R49, R167, R169) -/

/-- A command in flight can be answered before or after a cell is removed from DS-in, its place being reserved. -/
theorem State.completed_cellRemoved {s : State} (h : 1 ≤ s.insertion.reserved) (tag code : Byte) (r : Reply) :
    (s.cellRemoved 0).completed tag code r = (s.completed tag code r).cellRemoved 0 := by
  by_cases hh : s.paths.header = .reserved
  · simp [State.completed, State.cellRemoved, hh]
  · simp [State.completed, State.cellRemoved, hh, Nat.sub_add_cancel h]

/-- Once it has been answered, a command is carried out at once where a cell could be taken. -/
theorem State.commandReady_completed {s : State} (hs : s.cellReady) (h : 1 ≤ s.insertion.reserved) (tag code : Byte)
    (r : Reply) : (s.completed tag code r).commandReady := by
  have places : (s.completed tag code r).freePlaces = s.freePlaces := by
    simp only [State.freePlaces, State.completed, List.length_append, List.length_cons, List.length_nil]
    omega
  obtain ⟨low, header, item⟩ := hs
  exact ⟨⟨low, header.imp id fun ⟨absent, free⟩ => ⟨absent, places ▸ free⟩, item⟩, rfl⟩

/-- A reset that aborts a command is the reset of the state in which that command has been answered. -/
theorem exec_sectorReset_abort {s u : State} (hs : s.cellReady) (hn : ∀ tag k, s.mu.inFlight ≠ some (.sectorReset tag k))
    (hu : u.cellReady) (hr : 1 ≤ u.insertion.reserved) (tag : Byte) {code : Byte} {by' : Byte} {r : Reply}
    (h : (s.cellRemoved 0).abortInFlight = (u.cellRemoved 0).completed by' code r) :
    exec (.sectorReset tag 7) s = exec (.sectorReset tag 7) (u.completed by' code r) := by
  rw [exec_sectorReset hs hn, h, State.completed_cellRemoved hr,
    exec_sectorReset_of_ready (State.commandReady_completed hu hr by' code r)]

/-- Settles O30: the whole, the first step and one step more, each step, and the three aborts. -/
theorem sectorResetCompletes : Obligations.SectorResetCompletes := by
  refine ⟨fun s tag hs => ?_, fun s tag hs => ⟨?_, fun n h1 h6 => ?_⟩, fun s tag k hk => ?_, fun s tag by' hs hr => ?_⟩
  · rw [exec_sectorReset_of_ready hs]
    refine congrArg Host.Outcome.next ((repeatOp_succ _ 6 _).trans ?_)
    rw [State.resetSteps_eq, State.nextResetStep_last rfl]
    rfl
  · rw [exec_sectorReset_of_ready hs, Nat.max_self, repeatOp, repeatOp,
      State.nextResetStep_of_lt (tag := tag) (k := 0) rfl (by decide)]
    simp only [State.resetStep, State.resetSi_eq]
    rfl
  · simp only [exec_sectorReset_of_ready hs, Nat.max_eq_right h1, Nat.max_eq_right (Nat.le_add_left 1 n), repeatOp_succ]
  · dsimp only
    refine ⟨?_, ?_, ?_, ?_, ?_, ?_⟩ <;> rintro rfl
    · rw [State.nextResetStep_of_lt hk (by decide)]
      rfl
    · rw [State.nextResetStep_of_lt hk (by decide)]
      exact congrArg (State.setInFlight · _) s.resetAdmission_eq
    · rw [State.nextResetStep_of_lt hk (by decide)]
      rfl
    · rw [State.nextResetStep_of_lt hk (by decide)]
      rfl
    · rw [State.nextResetStep_of_lt hk (by decide)]
      rfl
    · rw [State.nextResetStep_last hk]
  · refine ⟨fun es k hk => ?_, fun t k hk => ?_, fun k hk => ?_⟩
    · exact exec_sectorReset_abort hs (by simp [hk]) hs hr tag
        (by simp only [State.abortInFlight, State.cellRemoved_mu, hk]; rfl)
    · exact exec_sectorReset_abort (u := s.installProfiles t k) hs (by simp [hk]) hs hr tag
        (by simp only [State.abortInFlight, State.cellRemoved_mu, hk]; rfl)
    · exact exec_sectorReset_abort hs (by simp [hk]) hs hr tag
        (by simp only [State.abortInFlight, State.cellRemoved_mu, hk]; rfl)

end Sys2Proof.Machine
end

section
/-! A marker taken in RUN (R14, R64, R115, R129): its stages in their order, what AC's figures come to whatever the order is,
and what no stage changes. -/

namespace Sys2Proof.Machine

open Sys2Proof

/-! ## The order of the stages (log 1) -/

/-- An interleaving, read through a condition that only one of the two sequences can meet, is that sequence so read. -/
theorem filter_interleave {α : Type} {p : α → Bool} {xs ys : List α} (picks : List Bool)
    (h : xs.filter p = [] ∨ ys.filter p = []) : (interleave picks xs ys).filter p = xs.filter p ++ ys.filter p := by
  induction picks generalizing xs ys with
  | nil => exact List.filter_append xs ys
  | cons b picks ih =>
    cases b with
    | true =>
      cases xs with
      | nil => exact List.filter_append [] ys
      | cons x xs =>
        have later : xs.filter p = [] ∨ ys.filter p = [] :=
          h.imp_left fun empty => List.filter_eq_nil_iff.2 fun a ha =>
            List.filter_eq_nil_iff.1 empty a (List.mem_cons_of_mem x ha)
        simp only [interleave, List.filter_cons, ih later]
        split <;> rfl
    | false =>
      cases ys with
      | nil => exact List.filter_append xs []
      | cons y ys =>
        have later : xs.filter p = [] ∨ ys.filter p = [] :=
          h.imp_right fun empty => List.filter_eq_nil_iff.2 fun a ha =>
            List.filter_eq_nil_iff.1 empty a (List.mem_cons_of_mem y ha)
        have here : p y = true → xs.filter p = [] := fun hy =>
          h.resolve_right fun empty => absurd hy (List.filter_eq_nil_iff.1 empty y List.mem_cons_self)
        simp only [interleave, List.filter_cons, ih later]
        split
        · next hy => rw [here hy]; rfl
        · rfl

/-- The stages of a marker, in an order that `picks` gives, hold each stage once: one of them stands between two runs of the
others. -/
theorem stages_split (picks : List Bool) (stage : MarkerStage) : ∃ before later : List MarkerStage,
    interleave picks otStages acStages = before ++ stage :: later ∧ stage ∉ before ∧ stage ∉ later := by
  have perm := interleave_perm picks otStages acStages
  have listed : stage ∈ interleave picks otStages acStages := perm.mem_iff.2 (by cases stage <;> decide)
  obtain ⟨before, later, split⟩ := List.append_of_mem listed
  have once : (before ++ stage :: later).Nodup := split ▸ perm.nodup_iff.2 (by decide)
  obtain ⟨_, tail, apart⟩ := List.nodup_append.1 once
  exact ⟨before, later, split, fun h => apart _ h _ List.mem_cons_self rfl, (List.nodup_cons.1 tail).1⟩

/-! ## The budget stage (R115) -/

/-- A staged set is in force once it has been applied (R113). -/
theorem State.applyStaged_eq (s : State) : s.applyStaged = { s with
    ac := { s.ac with banks := s.ac.staged.getD s.ac.banks, staged := none } } := by
  rcases s with ⟨_, _, _, _, _, _, _, ⟨_, _, _, _, _, _, _, staged, _, _, _, _, _⟩, _, _, _, _, _⟩
  cases staged <;> rfl

/-- A storm after one more marker (R112). -/
def stormAfterMarker (storm : Option Storm) : Option Storm :=
  storm.bind fun st => if st.remaining ≤ 1 then none else some { st with remaining := st.remaining - 1 }

theorem State.countStorm_ac (s : State) : s.countStorm.ac = { s.ac with storm := stormAfterMarker s.ac.storm } := by
  rcases hs : s.ac.storm with _ | st
  · simp only [State.countStorm, hs, stormAfterMarker, Option.bind_none]
    rw [← hs]
  · simp only [State.countStorm, hs, stormAfterMarker, Option.bind_some]
    split <;> simp only [State.notify_ac, State.setStorm_ac]

theorem State.countStorm_params (s : State) : s.countStorm.params = s.params := by
  simp only [State.countStorm]
  split
  · rfl
  · split <;> simp only [State.notify_params, State.setStorm_params]

theorem State.countStorm_tt (s : State) : s.countStorm.tt = s.tt := by
  simp only [State.countStorm]
  split
  · rfl
  · split <;> simp only [State.notify_tt, State.setStorm_tt]

theorem State.announceBudget_ac (s : State) : s.announceBudget.ac = s.computeBudget.ac := by
  simp only [State.announceBudget]
  split
  · rfl
  · rw [State.notify_ac]

theorem State.announceBudget_tt (s : State) : s.announceBudget.tt = s.tt := by
  simp only [State.announceBudget]
  split
  · rfl
  · rw [State.notify_tt, State.computeBudget_tt]

theorem State.applyStaged_tt (s : State) : s.applyStaged.tt = s.tt := by rw [State.applyStaged_eq]

theorem State.budgetStage_tt (s : State) : s.budgetStage.tt = s.tt := by
  rw [State.budgetStage, State.announceBudget_tt]
  simp only [State.holdLevel, State.setHeld_tt, State.computeRaw_tt, State.countStorm_tt, State.applyStaged_tt]

/-- `b` is what a budget stage makes of AC's figures `a`, with the raw level it finds (R110, R112 to R115). -/
structure Ac.BudgetedFrom (p : Params) (a b : Ac) : Prop where
  banks : b.banks = a.staged.getD a.banks
  staged : b.staged = none
  storm : b.storm = stormAfterMarker a.storm
  held : (b.heldLevel, b.holdCounter) = heldAfterMarker b.rawLevel a.heldLevel a.holdCounter a.levelHold
  effLevel : b.effLevel = effectiveLevel b.heldLevel b.storm
  bEff : b.bEff = effectiveBudget b.banks p b.effLevel

theorem State.budgetStage_budgeted (s : State) : Ac.BudgetedFrom s.params s.ac s.budgetStage.ac := by
  have ac : s.budgetStage.ac = s.applyStaged.countStorm.computeRaw.holdLevel.computeBudget.ac := State.announceBudget_ac _
  have params : s.applyStaged.countStorm.computeRaw.holdLevel.params = s.params := by
    rw [State.holdLevel, State.setHeld_params, State.computeRaw_params, State.countStorm_params, State.applyStaged_eq]
  have held : s.applyStaged.countStorm.computeRaw.holdLevel.ac = _ := State.setHeld_ac _ _
  rw [State.computeBudget_ac, params, held] at ac
  simp only [State.levelNow, held] at ac
  rw [State.computeRaw_ac, State.countStorm_ac, State.applyStaged_eq] at ac
  rw [ac]
  exact ⟨rfl, rfl, rfl, rfl, rfl, rfl⟩

/-- The law of a budget stage reads AC's figures alone. -/
theorem Ac.BudgetedFrom.congr {p : Params} {a b a' b' : Ac} (h : Ac.BudgetedFrom p a b) (ha : a.figures = a'.figures)
    (hb : b'.figures = b.figures) : Ac.BudgetedFrom p a' b' := by
  have figures : Ac.BudgetedFrom p a.figures b.figures := ⟨h.banks, h.staged, h.storm, h.held, h.effLevel, h.bEff⟩
  rw [ha, ← hb] at figures
  exact ⟨figures.banks, figures.staged, figures.storm, figures.held, figures.effLevel, figures.bEff⟩

/-- The stages without the budget's leave AC's figures alone. -/
theorem foldl_runStage_closed {R : State → State → Prop} (h : MarkerClosed R) (rank : Nat → Nat) {stages : List MarkerStage}
    (hb : .budget ∉ stages) (s : State) : R s (stages.foldl (runStage rank) s) := by
  induction stages generalizing s with
  | nil => exact h.refl s
  | cons stage stages ih =>
    rw [List.mem_cons, not_or] at hb
    exact h.trans (h.runStage rank s (Ne.symm hb.1)) (ih hb.2 _)

/-- Whatever the order of the stages, AC's figures are those of one budget stage (log 1). -/
theorem foldl_stages_budgeted (picks : List Bool) (rank : Nat → Nat) (s : State) :
    Ac.BudgetedFrom s.params s.ac ((interleave picks otStages acStages).foldl (runStage rank) s).ac := by
  obtain ⟨before, later, split, nb, nl⟩ := stages_split picks .budget
  rw [split, List.foldl_append, List.foldl_cons]
  have first := foldl_runStage_closed engineClosed_figures.marker rank nb s
  have params := (State.engineOnly_foldl (State.engineOnly_runStage rank) before s).params
  exact (params ▸ State.budgetStage_budgeted _).congr first (foldl_runStage_closed engineClosed_figures.marker rank nl _)

/-! ## What every stage keeps -/

/-- A relation on the records that holds along a marker's operations holds along the whole marker: the budget stage changes
no record. -/
theorem foldl_stages_closed {R : State → State → Prop} (h : MarkerClosed R) (hb : ∀ s t : State, t.tt = s.tt → R s t)
    (rank : Nat → Nat) (stages : List MarkerStage) (s : State) : R s (stages.foldl (runStage rank) s) :=
  h.foldl (fun t stage => by
    by_cases hs : stage = .budget
    · subst hs
      exact hb _ _ t.budgetStage_tt
    · exact h.runStage rank t hs) stages s

/-- Each record keeps what identifies it. -/
theorem markerClosed_identity : MarkerClosed fun s t =>
    ∀ id, (t.record? id).map Record.identity = (s.record? id).map Record.identity where
  refl _ _ := rfl
  trans h₁ h₂ id := (h₂ id).trans (h₁ id)
  notify s kind id values k := by rw [State.record?_notify]
  setSum _ _ _ := rfl
  setWaitList _ _ _ := rfl
  noteShed _ _ _ := rfl
  noteLost _ _ _ := rfl
  update s id f hf k := by
    rw [State.record?_update]
    split
    · simp only [Option.map_map, Function.comp_def, hf.identity]
    · rfl
  updateAll s f hf k := by simp only [State.record?_updateAll, Option.map_map, Function.comp_def, (hf k).identity]

/-! ## Cancel requests (R70) -/

/-- No cancel request is set in the record of an ID. -/
def State.cancelClear (s : State) (id : Nat) : Prop := ∀ r, s.record? id = some r → r.cancelReq = false

/-- A record without a cancel request has none after a marker's operations. -/
theorem markerClosed_cancelClear : MarkerClosed fun s t => ∀ id, s.cancelClear id → t.cancelClear id where
  refl _ _ h := h
  trans h₁ h₂ id h := h₂ id (h₁ id h)
  notify s kind id values k h r hr := h r (by rwa [State.record?_notify] at hr)
  setSum _ _ _ h := h
  setWaitList _ _ _ h := h
  noteShed _ _ _ h := h
  noteLost _ _ _ h := h
  update s id f hf k h r hr := by
    rw [State.record?_update] at hr
    split at hr
    · obtain ⟨r', hr', rfl⟩ := Option.map_eq_some_iff.1 hr
      exact Bool.eq_false_iff.2 fun hc => by simpa [h r' hr'] using hf.cancelReq r' hc
    · exact h r hr
  updateAll s f hf k h r hr := by
    rw [State.record?_updateAll] at hr
    obtain ⟨r', hr', rfl⟩ := Option.map_eq_some_iff.1 hr
    exact Bool.eq_false_iff.2 fun hc => by simpa [h r' hr'] using (hf k).cancelReq r' hc

/-- Cancel resolution leaves no request in the record it reaches. -/
theorem State.resolveCancel_clears (s : State) (id : Nat) : (s.resolveCancel id).cancelClear id := by
  rcases h : s.record? id with _ | r
  · rw [State.resolveCancel, State.withRecord_vacant h]
    intro r hr
    rw [h] at hr
    cases hr
  · have cleared : (s.update id fun r => { r with cancelReq := false }).cancelClear id := fun r' hr' => by
      rw [State.record?_update, if_pos rfl] at hr'
      obtain ⟨_, _, rfl⟩ := Option.map_eq_some_iff.1 hr'
      rfl
    simp only [State.resolveCancel, State.withRecord_of_record? h]
    have closed := markerClosed_cancelClear
    split
    · split
      · exact closed.notify _ _ _ _ id (closed.noteLost _ _ id (closed.lose _ _ _ id cleared))
      · exact closed.notify _ _ _ _ id cleared
    · next hc =>
      intro r' hr'
      rw [h] at hr'
      cases hr'
      simpa using hc

/-- OT's first stage reaches every record (R64, R70; log 2). -/
theorem State.cancelStage_clears (rank : Nat → Nat) (s : State) {id : Nat} (h : id ∈ s.ids) :
    (s.cancelStage rank).cancelClear id := by
  obtain ⟨before, later, split⟩ := List.append_of_mem ((mem_sortBy (fun a b => rank a < rank b) id s.ids).2 h)
  rw [State.cancelStage, split, List.foldl_append, List.foldl_cons]
  exact markerClosed_cancelClear.foldl markerClosed_cancelClear.resolveCancel later _ id (State.resolveCancel_clears _ id)

theorem foldl_stages_cancelClear (picks : List Bool) (rank : Nat → Nat) (s : State) (id : Nat) :
    ((interleave picks otStages acStages).foldl (runStage rank) s).cancelClear id := by
  obtain ⟨before, later, split, -, -⟩ := stages_split picks .cancel
  have same : ∀ s t : State, t.tt = s.tt → ∀ id, s.cancelClear id → t.cancelClear id := fun s t htt id h r hr =>
    h r (by rwa [State.record?_congr (congrArg Tt.records htt)] at hr)
  have keeps := foldl_stages_closed markerClosed_cancelClear same rank
  rw [split, List.foldl_append, List.foldl_cons]
  refine keeps later _ id ?_
  by_cases listed : id ∈ (before.foldl (runStage rank) s).ids
  · exact State.cancelStage_clears rank _ listed
  · have vacant : (before.foldl (runStage rank) s).record? id = none := assocGet_eq_none.2 listed
    exact markerClosed_cancelClear.runStage rank _ (by decide) id fun r hr => by rw [vacant] at hr; cases hr

/-! ## The marker -/

/-- The reaction to a marker: the stages, then the notes cleared and the choices numbered on (log 1, log 25). -/
theorem State.markerInRun_eq (s : State) : s.markerInRun =
    (let reached := (interleave (Config.markerPicks s.raceTick) otStages acStages).foldl
      (runStage (Config.cancelRank s.raceTick)) s.countMarker
    { reached with ot := { lostNow := [] }, ac := { reached.ac with shedNote := [] }, raceTick := s.raceTick + 1 }) := by
  have tick := (State.engineOnly_foldl (State.engineOnly_runStage (Config.cancelRank s.raceTick))
    (interleave (Config.markerPicks s.raceTick) otStages acStages) s.countMarker).raceTick
  exact congrArg (fun n => { State.react s.countMarker (Config.markerPicks s.raceTick) (Config.cancelRank s.raceTick) with
    raceTick := n + 1 }) tick

theorem State.recordFrame_self {s : State} {frame : FrameNumber} (h : s.si.frameNumber = frame) : s.recordFrame frame = s := by
  subst h; rfl

/-- A marker taken in RUN on a ready port (R14). -/
theorem exec_frameMarker_of_run {s : State} (hs : s.dsReady) (hm : s.si.mode = .run) (frame : FrameNumber) (tail : List Byte) :
    exec (.frameMarker frame tail) s =
      .next (((s.recordFrame frame).markerInRun).offerDs (DsItem.marker frame tail).bytes) := by
  rw [exec_of_dsReady rfl hs, State.routeDs, State.cutHeader_of_none hs.2.1]
  simp only [State.takeMarker, hm]

/-- A marker in COASTING is one in RUN after FRAME_REGAINED (R15). -/
theorem exec_frameMarker_of_coasting {s : State} (hs : s.dsReady) (hm : s.si.mode = .coasting) (frame : FrameNumber)
    (tail : List Byte) : exec (.frameMarker frame tail) s = exec (.frameMarker frame tail)
      (State.notify { s with si := { s.si with mode := .run, frameNumber := frame } } .frameRegained none []) := by
  have ready : (State.notify { s with si := { s.si with mode := .run, frameNumber := frame } } .frameRegained none
      []).dsReady := by
    rw [State.dsReady, State.notify_paths]
    exact hs
  rw [exec_frameMarker_of_run ready (State.notify_mode _ _ _ _), State.recordFrame_self (State.notify_frameNumber _ _ _ _),
    exec_of_dsReady rfl hs, State.routeDs, State.cutHeader_of_none hs.2.1]
  simp only [State.takeMarker, hm]
  rfl

/-- Settles O47: the stages in an order that keeps each block's own, the figures of that order, and what no stage changes. -/
theorem markerTakenInRun : Obligations.MarkerTakenInRun := by
  refine ⟨fun s frame tail hs hm hrec => ?_, fun s frame tail hs hm => exec_frameMarker_of_coasting hs hm frame tail⟩
  have frameOf := (State.engineOnly_foldl (State.engineOnly_runStage (Config.cancelRank s.raceTick))
    (interleave (Config.markerPicks s.raceTick) otStages acStages) (s.recordFrame frame).countMarker)
  have budget := foldl_stages_budgeted (Config.markerPicks s.raceTick) (Config.cancelRank s.raceTick)
    (s.recordFrame frame).countMarker
  have identity := foldl_stages_closed markerClosed_identity
    (fun s t htt id => by rw [State.record?_congr (congrArg Tt.records htt)]) (Config.cancelRank s.raceTick)
    (interleave (Config.markerPicks s.raceTick) otStages acStages) (s.recordFrame frame).countMarker
  have cleared := foldl_stages_cancelClear (Config.markerPicks s.raceTick) (Config.cancelRank s.raceTick)
    (s.recordFrame frame).countMarker
  refine ⟨_, exec_frameMarker_of_run hs hm frame tail, ⟨interleave (Config.markerPicks s.raceTick) otStages acStages,
    Config.cancelRank s.raceTick, filter_interleave _ (.inr (by decide)),
    filter_interleave _ (.inl (by decide)), ?_⟩, frameOf.mode.trans hm, frameOf.markerCount, frameOf.frameNumber,
    frameOf.watchdog, budget.banks, budget.staged, budget.storm, budget.held, ?_, budget.bEff, fun e he => ?_, identity,
    frameOf.ids, frameOf.stationMap, frameOf.paths, frameOf.insertion, frameOf.lm, frameOf.mp, frameOf.uq, frameOf.params,
    frameOf.pending, frameOf.inFlight, frameOf.mask, frameOf.thresholds, frameOf.levelHold⟩
  · exact (s.recordFrame frame).markerInRun_eq
  · refine Eq.trans (b := effectiveLevel (s.recordFrame frame).markerInRun.ac.heldLevel
      (s.recordFrame frame).markerInRun.ac.storm) budget.effLevel ?_
    cases (s.recordFrame frame).markerInRun.ac.storm <;> rfl
  · exact cleared e.1 e.2 (State.mem_record? ((State.recordsSound_congr frameOf.ids).2 hrec) he)

end Sys2Proof.Machine
end

section
/-! Shedding down to the budget (R125 to R127): what one shed makes of the total admitted cost, and that a shed check on
current costs ends within B_eff. -/

namespace Sys2Proof.Machine

open Sys2Proof

/-! ## Sums over the records -/

/-- A figure of each record, summed over the Terminal Table. -/
def recordSum (w : Record → Nat) (records : List (Nat × Record)) : Nat := (records.map fun e => w e.2).sum

/-- Replacing one record exchanges its figure for the new one's. -/
theorem recordSum_put (w : Record → Nat) {l : List (Nat × Record)} (hs : (l.map (·.1)).Pairwise (· < ·)) {id : Nat}
    {r : Record} (h : (id, r) ∈ l) (q : Record) :
    recordSum w (assocUpdate l id fun _ => q) + w r = recordSum w l + w q := by
  induction l with
  | nil => cases h
  | cons e l ih =>
    obtain ⟨above, later⟩ := List.pairwise_cons.1 hs
    rcases List.mem_cons.1 h with rfl | h
    · have others : assocUpdate l id (fun _ => q) = l := by
        refine (List.map_congr_left fun e he => if_neg ?_).trans (List.map_id l)
        exact Nat.ne_of_gt (above _ (List.mem_map_of_mem he))
      have head : assocUpdate ((id, r) :: l) id (fun _ => q) = (id, q) :: assocUpdate l id fun _ => q := by
        simp [assocUpdate]
      simp only [head, others, recordSum, List.map_cons, List.sum_cons]
      omega
    · have ne : e.1 ≠ id := Nat.ne_of_lt (above _ (List.mem_map_of_mem h))
      have head : assocUpdate (e :: l) id (fun _ => q) = e :: assocUpdate l id fun _ => q := by simp [assocUpdate, ne]
      have tail := ih later h
      simp only [head, recordSum, List.map_cons, List.sum_cons] at tail ⊢
      omega

/-- What a record adds to the committed sum (R122). -/
def committedCost (r : Record) : Nat := if r.state.committed then r.cost else 0

theorem committedTotal_eq (records : List (Nat × Record)) : committedTotal records = recordSum committedCost records := by
  induction records with
  | nil => rfl
  | cons e records ih =>
    simp only [committedTotal, recordSum, List.filter_cons, List.map_cons, List.sum_cons, committedCost] at ih ⊢
    split <;> simp_all

/-- One for a record that can be a victim. -/
def sheddableOnce (r : Record) : Nat := if sheddable r then 1 else 0

theorem recordSum_sheddable_le (records : List (Nat × Record)) : recordSum sheddableOnce records ≤ records.length := by
  have once (e : Nat × Record) : sheddableOnce e.2 ≤ 1 := by simp only [sheddableOnce]; split <;> omega
  induction records with
  | nil => exact Nat.le_refl 0
  | cons e records ih =>
    have := once e
    simp only [recordSum, List.map_cons, List.sum_cons, List.length_cons] at ih ⊢
    omega

/-- Where no record can be a victim, nothing is admitted at a cost. -/
theorem committedTotal_of_no_victim {records : List (Nat × Record)} (h : ∀ e ∈ records, sheddable e.2 = false) :
    committedTotal records = 0 := by
  have free : ∀ e ∈ records, committedCost e.2 = 0 := fun e he => by
    have := h e he
    simp only [sheddable, Bool.and_eq_false_iff, decide_eq_false_iff_not] at this
    simp only [committedCost]
    split
    · next hc => simp only [hc, Bool.true_eq_false, false_or] at this; omega
    · rfl
  rw [committedTotal_eq, recordSum, List.map_congr_left free]
  simp

/-! ## Current costs -/

/-- Costs are current and add up to the committed sum (R121, R122). -/
structure State.CostsSettled (s : State) : Prop where
  records : s.recordsSound
  current : s.costsCurrent
  sum : s.ac.committedSum = committedTotal s.tt.records

/-- Recomputing the costs settles them (R123). -/
theorem State.costsSettled_recomputeCosts {s : State} (hs : s.recordsSound) : s.recomputeCosts.CostsSettled where
  records := (State.recordsSound_congr (s := s) (t := s.recomputeCosts)
    (State.ids_updateAll s fun _ => recosted s.lm.profiles)).2 hs
  current e he hc := by
    obtain ⟨e', _, rfl⟩ := List.mem_map.1 he
    simp only [recosted] at hc ⊢
    split at hc <;> simp_all
    rfl
  sum := rfl

/-- The costs read the records, the Profile Table and the sum alone. -/
theorem State.CostsSettled.congr {s t : State} (h : s.CostsSettled) (records : t.tt.records = s.tt.records)
    (lm : t.lm = s.lm) (sum : t.ac.committedSum = s.ac.committedSum) : t.CostsSettled where
  records := (State.recordsSound_congr (s := s) (t := t) (by simp only [State.ids, records])).2 h.records
  current := by simpa only [State.costsCurrent, records, lm] using h.current
  sum := by rw [sum, records, h.sum]

section
variable {s : State} {id : Nat} {r : Record} (h : s.CostsSettled) (hr : s.record? id = some r)
include h hr

/-- The records once one of them has been shed. -/
theorem State.CostsSettled.shedTerminal_records (noted : Bool) :
    (s.shedTerminal noted id).tt.records = assocUpdate s.tt.records id fun _ => shedRecord s.si.markerCount r := by
  rw [State.shedTerminal_of_record h.records hr]
  exact congrArg Tt.records (State.notify_tt _ _ _ _)

theorem State.CostsSettled.shedTerminal_sum (noted : Bool) :
    (s.shedTerminal noted id).ac.committedSum = s.ac.committedSum - r.cost := by
  rw [State.shedTerminal_of_record h.records hr]
  exact congrArg Ac.committedSum (State.notify_ac _ _ _ _)

/-- A shed keeps the costs settled: the victim's cost leaves both the sum and the records (R127). -/
theorem State.CostsSettled.shedTerminal (hv : sheddable r = true) (noted : Bool) :
    (s.shedTerminal noted id).CostsSettled := by
  have records := h.shedTerminal_records hr noted
  refine ⟨(State.recordsSound_congr (s.engineOnly_shedTerminal noted id).ids).2 h.records, fun e he hc => ?_, ?_⟩
  · rw [records] at he
    obtain ⟨e', he', rfl⟩ := List.mem_map.1 he
    split at hc
    · cases hc
    · next hne => rw [if_neg hne, (s.engineOnly_shedTerminal noted id).lm]; exact h.current e' he' hc
  · have committed : committedCost r = r.cost := if_pos (by simp only [sheddable, Bool.and_eq_true] at hv; exact hv.1)
    have exchanged := recordSum_put committedCost h.records.1 (State.record?_mem hr) (shedRecord s.si.markerCount r)
    have shed : committedCost (shedRecord s.si.markerCount r) = 0 := rfl
    rw [h.shedTerminal_sum hr, records, committedTotal_eq, h.sum, committedTotal_eq]
    omega

/-- A shed leaves one record less that can be a victim. -/
theorem State.CostsSettled.shedTerminal_count (hv : sheddable r = true) (noted : Bool) :
    recordSum sheddableOnce (s.shedTerminal noted id).tt.records + 1 = recordSum sheddableOnce s.tt.records := by
  rw [h.shedTerminal_records hr]
  have exchanged := recordSum_put sheddableOnce h.records.1 (State.record?_mem hr) (shedRecord s.si.markerCount r)
  have victim : sheddableOnce r = 1 := if_pos hv
  have shed : sheddableOnce (shedRecord s.si.markerCount r) = 0 := rfl
  omega

end

/-- A part without a victim is within its budget: its committed sum is 0. -/
theorem State.CostsSettled.within_of_no_victim {s : State} (h : s.CostsSettled)
    (hv : ∀ id r, s.record? id = some r → sheddable r = false) : s.ac.committedSum ≤ s.ac.bEff := by
  rw [h.sum, committedTotal_of_no_victim fun e he => hv e.1 e.2 (State.mem_record? h.records he)]
  exact Nat.zero_le _

/-- Shedding goes on until the sum is within B_eff, where it may shed every record that can be a victim (R126). -/
theorem State.CostsSettled.shedWhileOver (noted : Bool) (n : Nat) {s : State} (h : s.CostsSettled)
    (hn : recordSum sheddableOnce s.tt.records ≤ n) :
    (State.shedWhileOver noted n s).CostsSettled ∧
      (State.shedWhileOver noted n s).ac.committedSum ≤ (State.shedWhileOver noted n s).ac.bEff := by
  induction n generalizing s with
  | zero =>
    refine ⟨h, h.within_of_no_victim fun id r hr => Bool.eq_false_iff.2 fun hv => ?_⟩
    have := h.shedTerminal_count hr hv noted
    omega
  | succ n ih =>
    simp only [State.shedWhileOver]
    split
    · next within => exact ⟨h, within⟩
    · split
      · next hv => exact ⟨h, h.within_of_no_victim ((State.victim?_eq_none h.records).1 hv)⟩
      · next id hv =>
        obtain ⟨⟨r, hr, victim⟩, -⟩ := State.victim?_spec h.records hv
        have fewer := h.shedTerminal_count hr victim noted
        exact ih (h.shedTerminal hr victim noted) (by omega)

theorem State.CostsSettled.shedCheck {s : State} (h : s.CostsSettled) (noted : Bool) :
    (s.shedCheck noted).CostsSettled ∧ (s.shedCheck noted).ac.committedSum ≤ (s.shedCheck noted).ac.bEff :=
  h.shedWhileOver noted _ (recordSum_sheddable_le _)

end Sys2Proof.Machine
end

section
/-! The RUN-entry operation (R12, R50, R107, R113 to R116, R123): its stages, how they are carried on, and what the whole
comes to. -/

namespace Sys2Proof.Machine

open Sys2Proof

/-! ## Carrying the operation on (log 11) -/

theorem repeatOp_of_fixed {f : State → State} {s : State} (h : f s = s) (n : Nat) : repeatOp f n s = s := by
  induction n with
  | zero => rfl
  | succ n ih => rw [repeatOp, h, ih]

/-- The state once stage `k` has been carried out and noted. -/
def State.entryReached (s : State) (tag : Byte) (k : Nat) : State :=
  (s.entryStage k).setInFlight (some (.runEntry tag k))

section
variable {s : State} {tag : Byte} {k last : Nat}

theorem State.nextEntryStage_of_not (h : ∀ tag k, s.mu.inFlight ≠ some (.runEntry tag k)) (last : Nat) :
    State.nextEntryStage last s = s := by
  unfold State.nextEntryStage
  split
  · next tag k hk => exact absurd hk (h tag k)
  · rfl

variable (h : s.mu.inFlight = some (.runEntry tag k))
include h

theorem State.nextEntryStage_of_le (hl : last ≤ k) : State.nextEntryStage last s = s := by
  simp only [State.nextEntryStage, h, hl, if_true]

theorem State.nextEntryStage_of_lt (hl : k < last) (hk : k < 4) :
    State.nextEntryStage last s = s.entryReached tag (k + 1) := by
  simp only [State.nextEntryStage, h, Nat.not_le.2 hl, Nat.not_le.2 hk, if_false]
  rfl

theorem State.nextEntryStage_last (hl : 4 < last) (hk : k = 4) : State.nextEntryStage last s = s.enterRun tag := by
  subst hk
  simp only [State.nextEntryStage, h, Nat.not_le.2 hl, le_refl, if_false, if_true]

/-- Five stages, less those carried out, are enough: after them the operation stands still. -/
theorem State.nextEntryStage_repeatOp {n : Nat} (hk : k ≤ 4) (hn : 5 ≤ n + k) :
    State.nextEntryStage last (repeatOp (State.nextEntryStage last) n s) = repeatOp (State.nextEntryStage last) n s := by
  induction n generalizing s k with
  | zero => omega
  | succ n ih =>
    have still {u : State} (hu : State.nextEntryStage last u = u) : State.nextEntryStage last
        (repeatOp (State.nextEntryStage last) n u) = repeatOp (State.nextEntryStage last) n u := by
      rw [repeatOp_of_fixed hu, hu]
    rw [repeatOp]
    rcases Nat.lt_or_ge k last with hl | hl
    · rcases Nat.lt_or_ge k 4 with h4 | h4
      · rw [State.nextEntryStage_of_lt h hl h4]
        exact ih (s := s.entryReached tag (k + 1)) rfl h4 (by omega)
      · obtain rfl : k = 4 := by omega
        rw [State.nextEntryStage_last h hl rfl]
        exact still (State.nextEntryStage_of_not (fun _ _ hc => by cases hc) last)
    · rw [State.nextEntryStage_of_le h hl]
      exact still (State.nextEntryStage_of_le h hl)

/-- Carrying on is the next stage, and carrying on from there. -/
theorem State.carryRunEntry_step (hk : k ≤ 4) : s.carryRunEntry last = (State.nextEntryStage last s).carryRunEntry last := by
  have fixed := State.nextEntryStage_repeatOp (last := last) h hk (Nat.le_add_right 5 k)
  exact fixed.symm.trans (repeatOp_succ _ 5 s).symm

theorem State.carryRunEntry_of_le (hl : last ≤ k) : s.carryRunEntry last = s :=
  repeatOp_of_fixed (State.nextEntryStage_of_le h hl) 5

theorem State.carryRunEntry_of_lt (hl : k < last) (hk : k < 4) :
    s.carryRunEntry last = (s.entryReached tag (k + 1)).carryRunEntry last := by
  rw [State.carryRunEntry_step h (by omega), State.nextEntryStage_of_lt h hl hk]

/-- Carrying on by one stage. -/
theorem State.carryRunEntry_one (hk : k < 4) : s.carryRunEntry (k + 1) = s.entryReached tag (k + 1) := by
  rw [State.carryRunEntry_of_lt h (Nat.lt_succ_self k) hk]
  exact State.carryRunEntry_of_le (s := s.entryReached tag (k + 1)) rfl (le_refl _)

theorem State.carryRunEntry_last (hk : k = 4) (hl : 4 < last) : s.carryRunEntry last = s.enterRun tag := by
  rw [State.carryRunEntry_step h (by omega), State.nextEntryStage_last h hl hk]
  exact repeatOp_of_fixed (State.nextEntryStage_of_not (fun _ _ hc => by cases hc) last) 5

end

theorem State.carryRunEntry_of_not {s : State} (h : ∀ tag k, s.mu.inFlight ≠ some (.runEntry tag k)) (last : Nat) :
    s.carryRunEntry last = s := repeatOp_of_fixed (State.nextEntryStage_of_not h last) 5

/-! ## The stages -/

/-- Stage 1: a profile above the effective ceiling falls to it (R50). -/
theorem reclamp_eq_min (t : List ProfileEntry) (r : Record) :
    reclamp t r = { r with profile := min r.profile (effectiveCeiling t r) } := by
  simp only [reclamp]
  split
  · next above => rw [Nat.min_eq_right (Nat.le_of_lt above)]
  · next within => rw [Nat.min_eq_left (Nat.not_lt.1 within)]

theorem TState.committed_iff (st : TState) : st.committed = true ↔ st = .confirming ∨ st = .inService ∨ st = .fading := by
  cases st <;> decide

theorem State.entryStage_one (s : State) : s.entryStage 1 = { s with tt := { s.tt with
    records := s.tt.records.map fun (e : Nat × Record) =>
      (e.1, { e.2 with profile := min e.2.profile (effectiveCeiling s.lm.profiles e.2) }) } } := by
  simp only [State.entryStage, State.updateAll, State.setRecords, reclamp_eq_min]

theorem recosted_eq (t : List ProfileEntry) (r : Record) : recosted t r =
    (if r.state = .confirming ∨ r.state = .inService ∨ r.state = .fading then
      let e := profileAt t r.profile
      { r with cost := e.overhead + (r.load + e.capacity - 1) / e.capacity }
    else r) := by
  simp only [recosted, TState.committed_iff, airtimeCost]

theorem State.entryStage_two (s : State) : s.entryStage 2 =
    (let recosted (r : Record) : Record :=
      if r.state = .confirming ∨ r.state = .inService ∨ r.state = .fading then
        let e := profileAt s.lm.profiles r.profile
        { r with cost := e.overhead + (r.load + e.capacity - 1) / e.capacity }
      else r
    { s with
      tt := { s.tt with records := s.tt.records.map fun (e : Nat × Record) => (e.1, recosted e.2) }
      ac := { s.ac with
        committedSum := committedTotal (s.tt.records.map fun (e : Nat × Record) => (e.1, recosted e.2)) } }) := by
  simp only [← recosted_eq]
  rfl

/-- Stage 3 counts N and O over the records as they stand (R107). -/
theorem State.rawLevel_eq (s : State) : rawLevelOf s.ac.thresholds (permille s.outageCount s.provisionedCount) =
    (let n := (s.tt.records.filter fun e => decide (e.2.state ≠ TState.held)).length
     let o := (s.tt.records.filter fun e => decide
       (e.2.state = TState.lost ∨ e.2.state = TState.polling ∨ e.2.state = TState.ranging)).length
     (s.ac.thresholds.filter fun th => decide (th ≤ if n = 0 then 0 else 1000 * o / n)).length) := by
  have provisioned (e : Nat × Record) : (e.2.state != .held) = decide (e.2.state ≠ TState.held) := by
    cases e.2.state <;> rfl
  have outage (e : Nat × Record) : e.2.state.outage = decide
      (e.2.state = TState.lost ∨ e.2.state = TState.polling ∨ e.2.state = TState.ranging) := by
    cases e.2.state <;> rfl
  simp only [State.outageCount, State.provisionedCount, State.countRecords, provisioned, outage]
  rfl

/-- A count of records by their state stands under changes that keep the state. -/
theorem State.countRecords_updateAll (s : State) {f : Nat → Record → Record} {p : Record → Bool}
    (hf : ∀ id r, p (f id r) = p r) : (s.updateAll f).countRecords p = s.countRecords p := by
  simp only [State.countRecords, State.updateAll_tt, List.filter_map, List.length_map, Function.comp_def, hf]

theorem heldAfterEntry_eq (raw held counter : Nat) :
    heldAfterEntry raw held counter = (max held raw, if held ≤ raw then 0 else counter) := by
  simp only [heldAfterEntry]
  split
  · next h => rw [Nat.max_eq_right h]
  · next h => rw [Nat.max_eq_left (Nat.le_of_not_le h)]

theorem effectiveLevel_eq (held : Nat) (storm : Option Storm) : effectiveLevel held storm =
    (match storm with
      | some st => max held st.level
      | none => held) := by cases storm <;> rfl

/-- The state with the figures stage 3 finds, before LEVEL_CHANGED (R107, R113, R114, R116). -/
def State.levelledAtEntry (s : State) : State :=
  let raw := rawLevelOf s.ac.thresholds (permille s.outageCount s.provisionedCount)
  let held := max s.ac.heldLevel raw
  let level := effectiveLevel held s.ac.storm
  { s with ac := { s.ac with
    banks := s.ac.staged.getD s.ac.banks, staged := none, rawLevel := raw, heldLevel := held
    holdCounter := if s.ac.heldLevel ≤ raw then 0 else s.ac.holdCounter, effLevel := level
    bEff := effectiveBudget (s.ac.staged.getD s.ac.banks) s.params level } }

theorem State.entryLevel_eq (s : State) : s.entryLevel =
    if s.levelledAtEntry.ac.effLevel = s.ac.effLevel then s.levelledAtEntry
    else s.levelledAtEntry.notify .levelChanged none
      [s.ac.effLevel, s.levelledAtEntry.ac.effLevel, s.levelledAtEntry.ac.bEff] := by
  simp only [State.entryLevel, State.applyStaged_eq, heldAfterEntry_eq]
  rfl

theorem State.entryLevel_tt (s : State) : s.entryLevel.tt = s.tt := by
  rw [State.entryLevel_eq]
  split
  · rfl
  · exact State.notify_tt _ _ _ _

theorem State.entryLevel_ac (s : State) : s.entryLevel.ac = s.levelledAtEntry.ac := by
  rw [State.entryLevel_eq]
  split
  · rfl
  · exact State.notify_ac _ _ _ _

/-- No stage reaches beyond records, accounts, AC's figures and notices. -/
theorem State.engineOnly_entryStage (s : State) (k : Nat) : s.EngineOnly (s.entryStage k) := by
  unfold State.entryStage
  split
  · exact s.engineOnly_updateAll _
  · exact (s.engineOnly_updateAll _).trans (State.engineOnly_setSum _ _)
  · have levelled : s.EngineOnly s.levelledAtEntry := by constructor <;> rfl
    rw [State.entryLevel_eq]
    split
    · exact levelled
    · exact levelled.trans (State.engineOnly_notify _ _ _ _)
  · exact s.engineOnly_shedCheck false
  · exact .rfl' s

theorem State.shedCheck_figures (s : State) (noted : Bool) : (s.shedCheck noted).ac.figures = s.ac.figures :=
  engineClosed_figures.marker.shedCheck s noted

theorem State.entryStage_storm (s : State) (k : Nat) : (s.entryStage k).ac.storm = s.ac.storm := by
  unfold State.entryStage
  split
  · rfl
  · rfl
  · rw [State.entryLevel_ac]; rfl
  · have same := congrArg Ac.storm (s.shedCheck_figures false)
    exact same
  · rfl

/-! ## What the operation leaves alone -/

/-- `t` differs from `s` in the records' fields, AC's accounts and levels, the mode with its watchdog, the queues of cells and
notices, the sticky flags and the command in flight alone. -/
structure State.EntryFrame (s t : State) : Prop where
  ids : t.ids = s.ids
  stationMap : t.tt.stationMap = s.tt.stationMap
  markerCount : t.si.markerCount = s.si.markerCount
  frameNumber : t.si.frameNumber = s.si.frameNumber
  paths : t.paths = s.paths
  lm : t.lm = s.lm
  mp : t.mp = s.mp
  uq : t.uq = s.uq
  params : t.params = s.params
  pending : t.pending = s.pending
  storm : t.ac.storm = s.ac.storm
  thresholds : t.ac.thresholds = s.ac.thresholds
  levelHold : t.ac.levelHold = s.ac.levelHold
  mask : t.mu.mask = s.mu.mask

theorem State.EntryFrame.same (s : State) : s.EntryFrame s := by constructor <;> rfl

theorem State.EntryFrame.trans {s t u : State} (h₁ : s.EntryFrame t) (h₂ : t.EntryFrame u) : s.EntryFrame u where
  ids := h₂.ids.trans h₁.ids
  stationMap := h₂.stationMap.trans h₁.stationMap
  markerCount := h₂.markerCount.trans h₁.markerCount
  frameNumber := h₂.frameNumber.trans h₁.frameNumber
  paths := h₂.paths.trans h₁.paths
  lm := h₂.lm.trans h₁.lm
  mp := h₂.mp.trans h₁.mp
  uq := h₂.uq.trans h₁.uq
  params := h₂.params.trans h₁.params
  pending := h₂.pending.trans h₁.pending
  storm := h₂.storm.trans h₁.storm
  thresholds := h₂.thresholds.trans h₁.thresholds
  levelHold := h₂.levelHold.trans h₁.levelHold
  mask := h₂.mask.trans h₁.mask

/-- A stage carried out and noted. -/
theorem State.entryFrame_reached (s : State) (tag : Byte) (k : Nat) : s.EntryFrame (s.entryReached tag k) :=
  have only := s.engineOnly_entryStage k
  { ids := only.ids, stationMap := only.stationMap, markerCount := only.markerCount, frameNumber := only.frameNumber
    paths := only.paths, lm := only.lm, mp := only.mp, uq := only.uq, params := only.params, pending := only.pending
    storm := s.entryStage_storm k, thresholds := only.thresholds, levelHold := only.levelHold, mask := only.mask }

theorem State.entryFrame_enterRun (s : State) (tag : Byte) : s.EntryFrame (s.enterRun tag) := by constructor <;> rfl

/-- The operation stands after stage `last`: the mode, the watchdog and the Insertion Queue as they were. -/
structure State.EntryPaused (s t : State) (tag : Byte) (last : Nat) : Prop where
  inFlight : t.mu.inFlight = some (.runEntry tag last)
  mode : t.si.mode = s.si.mode
  watchdog : t.si.watchdog = s.si.watchdog
  insertion : t.insertion = s.insertion

/-- The operation is complete: RUN with its watchdog armed, and the response placed. -/
structure State.EntryDone (s t : State) (tag : Byte) : Prop where
  inFlight : t.mu.inFlight = none
  mode : t.si.mode = .run
  watchdog : t.si.watchdog = some s.params.watchdogTime
  insertion : t.insertion = { cells := s.insertion.cells ++ [.response tag 0x01 .ok 0 0 []]
                              reserved := s.insertion.reserved - 1 }

theorem State.entryPaused_reached (s : State) (tag : Byte) (k : Nat) : s.EntryPaused (s.entryReached tag k) tag k :=
  have only := s.engineOnly_entryStage k
  ⟨rfl, only.mode, only.watchdog, only.insertion⟩

/-- Carried on from below `last`, the operation leaves alone what no stage reaches, and stands paused or complete. -/
theorem State.carryRunEntry_reaches {s : State} {tag : Byte} {k last : Nat} (h : s.mu.inFlight = some (.runEntry tag k))
    (hk : k ≤ 4) (hl : k < last) : s.EntryFrame (s.carryRunEntry last) ∧
      (last ≤ 4 → s.EntryPaused (s.carryRunEntry last) tag last) ∧ (4 < last → s.EntryDone (s.carryRunEntry last) tag) := by
  rcases Nat.lt_or_ge k 4 with h4 | h4
  · have frame := s.entryFrame_reached tag (k + 1)
    have paused := s.entryPaused_reached tag (k + 1)
    rw [State.carryRunEntry_of_lt h hl h4]
    rcases Nat.lt_or_ge (k + 1) last with more | no
    · obtain ⟨frame', paused', done'⟩ := State.carryRunEntry_reaches paused.inFlight h4 more
      refine ⟨frame.trans frame', fun hle => ?_, fun hgt => ?_⟩
      · obtain ⟨inFlight, mode, watchdog, insertion⟩ := paused' hle
        exact ⟨inFlight, mode.trans paused.mode, watchdog.trans paused.watchdog, insertion.trans paused.insertion⟩
      · obtain ⟨inFlight, mode, watchdog, insertion⟩ := done' hgt
        exact ⟨inFlight, mode, by rw [watchdog, frame.params], by rw [insertion, paused.insertion]⟩
    · obtain rfl : last = k + 1 := by omega
      rw [State.carryRunEntry_of_le paused.inFlight (le_refl _)]
      exact ⟨frame, fun _ => paused, fun hgt => by omega⟩
  · have last4 : 4 < last := by omega
    rw [State.carryRunEntry_last h (by omega) last4]
    exact ⟨s.entryFrame_enterRun tag, fun hle => by omega, fun _ => ⟨rfl, rfl, rfl, rfl⟩⟩
termination_by 4 - k

/-! ## The figures of the whole -/

/-- No record is assigned a profile above its effective ceiling (R50). -/
def State.profilesFit (t : List ProfileEntry) (s : State) : Prop := ∀ e ∈ s.tt.records, e.2.profile ≤ effectiveCeiling t e.2

/-- Changes that keep the profile and the ceiling keep the fit. -/
theorem State.profilesFit_updateAll {t : List ProfileEntry} {s : State} (h : s.profilesFit t) {f : Nat → Record → Record}
    (hf : ∀ id r, (f id r).profile = r.profile ∧ (f id r).ceiling = r.ceiling) : (s.updateAll f).profilesFit t := by
  intro e he
  obtain ⟨e', he', rfl⟩ := List.mem_map.1 he
  obtain ⟨profile, ceiling⟩ := hf e'.1 e'.2
  simp only [effectiveCeiling, profile, ceiling]
  exact h e' he'

theorem MarkerChange.profile_ceiling {f : Record → Record} (hf : MarkerChange f) (r : Record) :
    (f r).profile = r.profile ∧ (f r).ceiling = r.ceiling := by
  have same := hf.identity r
  simp only [Record.identity, Prod.mk.injEq] at same
  obtain ⟨-, -, -, ceiling, profile, -⟩ := same
  exact ⟨profile, ceiling⟩

/-- A marker's operations on records keep the fit. -/
theorem markerClosed_profilesFit (t : List ProfileEntry) :
    MarkerClosed fun s u => s.profilesFit t → u.profilesFit t where
  refl _ h := h
  trans h₁ h₂ h := h₂ (h₁ h)
  notify s kind id values h := by rwa [State.profilesFit, State.notify_tt]
  setSum _ _ h := h
  setWaitList _ _ h := h
  noteShed _ _ h := h
  noteLost _ _ h := h
  update s id f hf h e he := by
    obtain ⟨e', he', rfl⟩ := List.mem_map.1 he
    split
    · obtain ⟨profile, ceiling⟩ := hf.profile_ceiling e'.2
      simp only [effectiveCeiling, profile, ceiling]
      exact h e' he'
    · exact h e' he'
  updateAll s f hf h := State.profilesFit_updateAll h fun id r => (hf id).profile_ceiling r

/-- The state before stage 5, each stage carried out on the one before. -/
def State.entryStaged (s : State) (tag : Byte) : State :=
  (((s.entryReached tag 1).entryReached tag 2).entryReached tag 3).entryReached tag 4

theorem State.carryRunEntry_whole {s : State} {tag : Byte} (h : s.mu.inFlight = some (.runEntry tag 0)) {last : Nat}
    (hl : 4 < last) : s.carryRunEntry last = (s.entryStaged tag).enterRun tag := by
  rw [State.carryRunEntry_of_lt h (by omega) (by omega),
    State.carryRunEntry_of_lt (tag := tag) (k := 1) rfl (by omega) (by omega),
    State.carryRunEntry_of_lt (tag := tag) (k := 2) rfl (by omega) (by omega),
    State.carryRunEntry_of_lt (tag := tag) (k := 3) rfl (by omega) (by omega),
    State.carryRunEntry_last (tag := tag) (k := 4) rfl rfl hl]
  rfl

section
variable {s : State} (hs : s.recordsSound) (tag : Byte)
include hs

/-- Costs are settled before stage 4, by stage 2 (R123). -/
theorem State.costsSettled_entry : (((s.entryReached tag 1).entryReached tag 2).entryReached tag 3).CostsSettled := by
  have two : (((s.entryReached tag 1).entryReached tag 2)).CostsSettled :=
    State.CostsSettled.congr (s := (s.entryReached tag 1).recomputeCosts)
      (State.costsSettled_recomputeCosts
        ((State.recordsSound_congr (s := s) (t := s.entryReached tag 1) (s.entryFrame_reached tag 1).ids).2 hs)) rfl rfl rfl
  refine two.congr ?_ (State.entryFrame_reached _ tag 3).lm ?_
  · exact congrArg Tt.records (State.entryLevel_tt _)
  · have same := congrArg Ac.committedSum (State.entryLevel_ac ((s.entryReached tag 1).entryReached tag 2))
    exact same

/-- The sum ends within B_eff, and the costs are current (R12, R126). -/
theorem State.costsSettled_entryStaged :
    (s.entryStaged tag).CostsSettled ∧ (s.entryStaged tag).ac.committedSum ≤ (s.entryStaged tag).ac.bEff := by
  obtain ⟨settled, within⟩ := (State.costsSettled_entry hs tag).shedCheck false
  exact ⟨settled.congr rfl rfl rfl, within⟩

end

/-- AC's figures after stage 3, which no shed changes. -/
theorem State.entryStaged_figures (s : State) (tag : Byte) :
    (s.entryStaged tag).ac.figures = ((s.entryReached tag 1).entryReached tag 2).levelledAtEntry.ac.figures :=
  (State.shedCheck_figures _ false).trans (congrArg Ac.figures (State.entryLevel_ac _))

/-- `b` is what stage 3 makes of AC's figures `a`, with the raw level it finds (R113, R114, R116). -/
structure Ac.LevelledFrom (p : Params) (a b : Ac) : Prop where
  banks : b.banks = a.staged.getD a.banks
  staged : b.staged = none
  effLevel : b.effLevel = effectiveLevel b.heldLevel a.storm
  bEff : b.bEff = effectiveBudget b.banks p b.effLevel
  held : b.heldLevel = max a.heldLevel b.rawLevel

theorem Ac.LevelledFrom.of_figures {p : Params} {a b : Ac} (h : Ac.LevelledFrom p a b.figures) : Ac.LevelledFrom p a b :=
  ⟨h.banks, h.staged, h.effLevel, h.bEff, h.held⟩

theorem State.entryStaged_levelled (s : State) (tag : Byte) : Ac.LevelledFrom s.params s.ac (s.entryStaged tag).ac := by
  have levelled : Ac.LevelledFrom s.params s.ac
      ((s.entryReached tag 1).entryReached tag 2).levelledAtEntry.ac.figures := ⟨rfl, rfl, rfl, rfl, rfl⟩
  rw [← State.entryStaged_figures] at levelled
  exact levelled.of_figures

/-- Stages 1 and 2 change no state, so that the raw level is that of the records at the start (R107). -/
theorem State.entryStaged_rawLevel (s : State) (tag : Byte) : (s.entryStaged tag).ac.rawLevel =
    rawLevelOf s.ac.thresholds (permille s.outageCount s.provisionedCount) := by
  have counts (p : TState → Bool) : ((s.entryReached tag 1).entryReached tag 2).countRecords (fun r => p r.state) =
      s.countRecords fun r => p r.state := by
    have one := State.countRecords_updateAll s (f := fun _ => reclamp s.lm.profiles) (p := fun r => p r.state)
      fun _ r => by rw [reclamp_eq_min]
    have two := State.countRecords_updateAll (s.entryReached tag 1) (f := fun _ => recosted s.lm.profiles)
      (p := fun r => p r.state) fun _ r => by simp only [recosted]; split <;> rfl
    exact two.trans one
  have raw := congrArg Ac.rawLevel (s.entryStaged_figures tag)
  refine Eq.trans raw ?_
  have outage : ((s.entryReached tag 1).entryReached tag 2).outageCount = s.outageCount := counts TState.outage
  have provisioned : ((s.entryReached tag 1).entryReached tag 2).provisionedCount = s.provisionedCount := counts (· != .held)
  show rawLevelOf s.ac.thresholds (permille _ _) = _
  rw [outage, provisioned]

/-- Stage 1 makes every profile fit, and no later stage changes one (R50). -/
theorem State.entryStaged_profilesFit (s : State) (tag : Byte) : (s.entryStaged tag).profilesFit s.lm.profiles := by
  have one : (s.entryReached tag 1).profilesFit s.lm.profiles := fun e he => by
    obtain ⟨e', _, rfl⟩ := List.mem_map.1 he
    show (reclamp s.lm.profiles e'.2).profile ≤ effectiveCeiling s.lm.profiles (reclamp s.lm.profiles e'.2)
    rw [reclamp_eq_min]
    exact Nat.min_le_right _ _
  have two : ((s.entryReached tag 1).entryReached tag 2).profilesFit s.lm.profiles :=
    State.profilesFit_updateAll (f := fun _ => recosted s.lm.profiles) one fun _ r => by
      simp only [recosted]
      split <;> exact ⟨rfl, rfl⟩
  have three : (((s.entryReached tag 1).entryReached tag 2).entryReached tag 3).profilesFit s.lm.profiles := fun e he =>
    two e (by rwa [← State.entryLevel_tt])
  exact (markerClosed_profilesFit s.lm.profiles).shedCheck _ false three

theorem exec_runEntryOperation {s t : State} (hup : s.paths.resetLow = false) {last : Nat} (h : s.carryRunEntry last = t) :
    exec (.runEntryOperation last) s = .next t := next_whenUp hup h

/-- Carrying on through a stage is the next stage, and carrying on from there, as commands of their own (log 11). -/
theorem exec_runEntryOperation_step {s : State} (hup : s.paths.resetLow = false) {tag : Byte} {k last : Nat}
    (h : s.mu.inFlight = some (.runEntry tag k)) (hl : k < last) (hk : k ≤ 4) : exec (.runEntryOperation last) s =
      (match exec (.runEntryOperation (k + 1)) s with
        | .next u => exec (.runEntryOperation last) u
        | stop => stop) := by
  rcases Nat.lt_or_ge k 4 with h4 | h4
  · have up : (s.entryReached tag (k + 1)).paths.resetLow = false := by rw [(s.entryFrame_reached tag (k + 1)).paths, hup]
    rw [exec_runEntryOperation hup (State.carryRunEntry_of_lt h hl h4),
      exec_runEntryOperation hup (State.carryRunEntry_one h h4)]
    exact (exec_runEntryOperation up rfl).symm
  · obtain rfl : k = 4 := by omega
    rw [exec_runEntryOperation hup (State.carryRunEntry_last h rfl hl),
      exec_runEntryOperation hup (State.carryRunEntry_last h rfl (by decide))]
    exact (exec_runEntryOperation (s := s.enterRun tag) hup
      (State.carryRunEntry_of_not (fun _ _ hc => by cases hc) last)).symm

/-- Settles O12: without the operation in flight, each stage with the composition, and the whole. -/
theorem runEntryStages : Obligations.RunEntryStages := by
  refine ⟨fun s last hn => ?_, fun s tag k hup h => ?_, fun s tag k last hup h hk hs => ?_⟩
  · exact congrArg Host.Outcome.next (by rw [State.carryRunEntry_of_not hn, State.whenUp, ite_self])
  · intro reached n o raw held level bEff levelled recosted
    refine ⟨?_, ?_, ?_, ?_, ?_, fun last hl hk => ?_⟩
    · rintro rfl
      exact exec_runEntryOperation hup ((State.carryRunEntry_one h (by decide)).trans (congrArg reached s.entryStage_one))
    · rintro rfl
      exact exec_runEntryOperation hup ((State.carryRunEntry_one h (by decide)).trans (congrArg reached s.entryStage_two))
    · rintro rfl
      refine exec_runEntryOperation hup ((State.carryRunEntry_one h (by decide)).trans (congrArg reached ?_))
      have same : s.levelledAtEntry = levelled := by
        simp only [State.levelledAtEntry, s.rawLevel_eq, effectiveLevel_eq]
        rfl
      exact s.entryLevel_eq.trans (by rw [same])
    · rintro rfl
      exact exec_runEntryOperation hup (State.carryRunEntry_one h (by decide))
    · rintro rfl
      exact exec_runEntryOperation hup (State.carryRunEntry_last h rfl (by decide))
    · exact exec_runEntryOperation_step hup h hl hk
  · refine ⟨_, exec_runEntryOperation hup rfl, fun hl => State.carryRunEntry_of_le h hl, fun hl h4 => ?_, fun h4 => ?_,
      fun h0 h4 => ?_, ?_⟩
    · obtain ⟨-, paused, -⟩ := State.carryRunEntry_reaches h hk hl
      obtain ⟨inFlight, mode, watchdog, insertion⟩ := paused h4
      exact ⟨inFlight, mode, watchdog, insertion⟩
    · obtain ⟨-, -, done⟩ := State.carryRunEntry_reaches (last := last) h hk (by omega)
      obtain ⟨inFlight, mode, watchdog, insertion⟩ := done h4
      exact ⟨inFlight, mode, watchdog, insertion⟩
    · subst h0
      rw [State.carryRunEntry_whole h h4]
      obtain ⟨settled, within⟩ := State.costsSettled_entryStaged hs tag
      have levelled := s.entryStaged_levelled tag
      exact ⟨settled.current, settled.sum, within, levelled.banks, levelled.staged, levelled.effLevel, levelled.bEff,
        levelled.held, (s.entryStaged_rawLevel tag).trans s.rawLevel_eq, s.entryStaged_profilesFit tag⟩
    · have frame : s.EntryFrame (s.carryRunEntry last) := by
        rcases Nat.lt_or_ge k last with hl | hl
        · obtain ⟨frame, -, -⟩ := State.carryRunEntry_reaches h hk hl
          exact frame
        · rw [State.carryRunEntry_of_le h hl]
          exact .same s
      obtain ⟨ids, stationMap, markerCount, frameNumber, paths, lm, mp, uq, params, pending, storm, thresholds, levelHold,
        mask⟩ := frame
      exact ⟨ids, stationMap, markerCount, frameNumber, paths, lm, mp, uq, params, pending, storm, thresholds, levelHold,
        mask⟩

end Sys2Proof.Machine
end

section
/-! What provisions a record: its address, class, load and ceiling, which provisioning alone writes (R23 to R25). A relation that
holds along changes of records that keep them holds along every operation of LM, OT, RU, MP and AC. -/

namespace Sys2Proof.Machine

open Sys2Proof

/-- The provisioning fields of a record. -/
def Record.provision (r : Record) : Address × Cls × Nat × Nat := (r.addr, r.cls, r.load, r.ceiling)

/-- A change of a record that keeps its provisioning fields. -/
def KeepsProvision (f : Record → Record) : Prop := ∀ r, (f r).provision = r.provision

theorem MarkerChange.keepsProvision {f : Record → Record} (h : MarkerChange f) : KeepsProvision f := fun r => by
  have same := h.identity r
  simp only [Record.identity, Prod.mk.injEq] at same
  obtain ⟨addr, cls, load, ceiling, -⟩ := same
  simp only [Record.provision, addr, cls, load, ceiling]

theorem keepsProvision_reclamp (t : List ProfileEntry) : KeepsProvision (reclamp t) := fun r => by
  simp only [reclamp]
  split <;> rfl

theorem keepsProvision_recosted (t : List ProfileEntry) : KeepsProvision (recosted t) := fun r => by
  simp only [recosted]
  split <;> rfl

/-- A relation that holds along the parts of every operation on records, and along several of them, where each change of a
record keeps its provisioning fields. It may read those fields, which a relation that is `EngineClosed` cannot. -/
structure ProvisionClosed (R : State → State → Prop) : Prop where
  refl : ∀ s, R s s
  trans : ∀ {s t u}, R s t → R t u → R s u
  notify : ∀ (s : State) kind id values, R s (s.notify kind id values)
  setSum : ∀ (s : State) sum, R s (s.setSum sum)
  setWaitList : ∀ (s : State) l, R s (s.setWaitList l)
  noteShed : ∀ (s : State) id, R s (s.noteShed id)
  noteLost : ∀ (s : State) id, R s (s.noteLost id)
  update : ∀ (s : State) id {f : Record → Record} (_ : KeepsProvision f := by exact fun _ => rfl), R s (s.update id f)
  updateAll : ∀ (s : State) {f}, (∀ id, KeepsProvision (f id)) → R s (s.updateAll f)

namespace ProvisionClosed

variable {R : State → State → Prop} (h : ProvisionClosed R)

include h

theorem marker : MarkerClosed R :=
  { refl := h.refl, trans := h.trans, notify := h.notify, setSum := h.setSum, setWaitList := h.setWaitList
    noteShed := h.noteShed, noteLost := h.noteLost, update := fun s id _ hf => h.update s id hf.keepsProvision
    updateAll := fun s _ hf => h.updateAll s fun id => (hf id).keepsProvision }

theorem withRecord {s : State} {id : Nat} {f : Record → State} (hf : ∀ r, s.record? id = some r → R s (f r)) :
    R s (s.withRecord id f) := h.marker.withRecord hf

/-- An update of one record after other parts of the same operation. -/
theorem thenUpdate {s t : State} (hst : R s t) (id : Nat) {f : Record → Record}
    (hf : KeepsProvision f := by exact fun _ => rfl) : R s (t.update id f) := h.trans hst (h.update t id hf)

/-- A notice after other parts of the same operation. -/
theorem thenNotify {s t : State} (hst : R s t) (kind : NoticeKind) (id : Option Nat) (values : List Int) :
    R s (t.notify kind id values) := h.trans hst (h.notify t kind id values)

/-! ### Reports LM counts -/

theorem changeProfile (s : State) (id p : Nat) : R s (s.changeProfile id p) :=
  h.withRecord fun r _ => by
    have changed (sum : Nat) (values : List Int) : R s
        (((s.update id (reprofiled s.lm.profiles p)).setSum sum).notify .profileChanged (some id) values) :=
      h.thenNotify (h.trans (h.update s id) (h.setSum _ _)) _ _ _
    dsimp only
    split_ifs
    · exact h.refl s
    · exact h.trans (changed _ _) (h.marker.shedCheck _ _)
    · exact changed _ _

theorem selectCommitted (s : State) (id : Nat) : R s (s.selectCommitted id) :=
  h.withRecord fun _ _ => h.changeProfile s id _

theorem enterFading (s : State) (id : Nat) : R s (s.enterFading id) :=
  h.withRecord fun r _ => by
    have faded (values : List Int) : R s
        ((s.update id fun r => { r with state := .fading }).notify .fadingEntered (some id) values) :=
      h.thenNotify (h.update s id) _ _ _
    dsimp only
    split
    · exact h.trans (faded _) (h.changeProfile _ _ _)
    · exact faded _

theorem countFailure (s : State) (id : Nat) (o : BurstOutcome) : R s (s.countFailure id o) :=
  h.withRecord fun r _ => by
    have counted : R s (s.update id fun q => { q with fade := r.fade + fadeStep o }) := h.update s id
    dsimp only
    split_ifs
    · exact h.marker.lose s _ _
    · exact h.thenNotify counted _ _ _
    · exact counted

theorem failedReport (s : State) (id : Nat) (o : BurstOutcome) : R s (s.failedReport id o) :=
  h.trans (h.countFailure s id o) <| h.withRecord fun r _ => by
    split
    · exact h.enterFading _ id
    · exact h.refl _

theorem goodReport (s : State) (id : Nat) : R s (s.goodReport id) :=
  h.withRecord fun r _ => by
    have counted : R s (s.update id fun q => { q with fade := r.fade - 1 }) := h.update s id
    dsimp only
    split_ifs
    · exact h.refl s
    · exact h.thenNotify (h.thenUpdate counted id) _ _ _
    · exact counted

theorem confirmIfWaiting (s : State) (id : Nat) : R s (s.confirmIfWaiting id) :=
  h.withRecord fun r _ => by
    split
    · exact h.trans (h.update s id) <| h.withRecord fun _ _ => h.thenNotify (h.update _ id) _ _ _
    · exact h.refl s

theorem grantReport (s : State) (id : Nat) (o : BurstOutcome) (snr : Int) : R s (s.grantReport id o snr) :=
  h.withRecord fun r _ => by
    split
    · cases o with
      | good =>
        have counted := h.trans (h.goodReport s id) (h.confirmIfWaiting _ id)
        exact h.trans (h.thenUpdate counted id (f := averageInto _ snr)) (h.selectCommitted _ id)
      | crcBad => exact h.failedReport s id _
      | missed => exact h.failedReport s id _
    · exact h.refl s

theorem countKeepalive (select : Bool) (s : State) (id : Nat) (o : BurstOutcome) (snr : Int) :
    R s (State.countKeepalive select s id o snr) := by
  simp only [State.countKeepalive]
  split
  · exact h.thenUpdate (h.thenUpdate (h.update s id) id) id
  · split
    · exact h.thenUpdate (h.countFailure s id o) id
    · exact h.countFailure s id o

/-! ### Ranging and polls -/

theorem ranged (s : State) (id : Nat) : R s (s.ranged id) :=
  h.withRecord fun r _ => by
    have ended : R s (s.update id (rangedRecord s.lm.profiles)) := h.update s id
    dsimp only
    split
    · exact h.thenNotify (h.thenUpdate ended id) _ _ _
    · exact h.trans (h.thenUpdate ended id) (h.setWaitList _ _)

theorem attempt (s : State) (id : Nat) (message : Option Message) : R s (s.attempt id message) :=
  h.withRecord fun r _ => by
    split
    · exact h.update s id
    · exact h.marker.lose s _ _

theorem measure (s : State) (id : Nat) (m : Measurement) : R s (s.measure id m) := by
  simp only [State.measure]
  split
  · refine h.trans (h.update s id (f := measuredRecord s.params.snrShift m)) ?_
    split
    · exact h.ranged _ id
    · exact h.attempt _ id _
  · exact h.attempt s id _

theorem firstMeasurement (s : State) (id : Nat) (m : Measurement) : R s (s.firstMeasurement id m) :=
  h.trans (h.update s id) (h.measure _ id m)

theorem contentionListed (s : State) (id : Nat) (m : Measurement) : R s (s.contentionListed id m) :=
  h.withRecord fun r _ => by
    cases r.state with
    | held => exact h.refl s
    | lost => exact h.trans (h.update s id) (h.firstMeasurement _ id m)
    | polling => exact h.trans (h.update s id) (h.firstMeasurement _ id m)
    | ranging => exact h.trans (h.update s id) (h.measure _ id m)
    | _ => exact h.trans (h.marker.lose s .rebooted id) (h.firstMeasurement _ id m)

theorem judgePolling (s : State) (id : Nat) (m : Measurement) : R s (s.judgePolling id m) := by
  simp only [State.judgePolling]
  split
  · exact h.trans (h.update s id) (h.firstMeasurement _ id m)
  · exact h.update s id
  · exact h.update s id

theorem judgePoll (select : Bool) (s : State) (id : Nat) (m : Measurement) : R s (State.judgePoll select s id m) := by
  simp only [State.judgePoll]
  split
  · exact h.judgePolling s id m
  · exact h.measure s id m
  · exact h.trans (h.update s id) (h.countKeepalive select _ id _ _)
  · exact h.refl s

theorem pollReport (select : Bool) (s : State) (id : Nat) (frame : FrameNumber) (m : Measurement) :
    R s (State.pollReport select s id frame m) :=
  h.withRecord fun r _ => by
    split
    · exact h.trans (h.update s id) (h.judgePoll select _ id m)
    · exact h.refl s

theorem endFrame (select : Bool) (s : State) (n : FrameNumber) : R s (State.endFrame select s n) :=
  h.marker.foldl (fun s id => h.withRecord fun r _ => by
    split
    · exact h.refl s
    · split
      · exact h.trans (h.update s id) (h.judgePoll select _ id _)
      · exact h.refl s) _ s

end ProvisionClosed

end Sys2Proof.Machine
end

section
/-! The tables (R19, R22, R26, R153): the records by ascending ID, the Station Map that mirrors them and the Unlisted Queue; what
leaves them alone, and the operations that write them. -/

namespace Sys2Proof.Machine

open Sys2Proof

/-! ## Tables by key -/

/-- A change of what stands under each key commutes with listing a value under a key. -/
theorem map_assocPut {α β : Type} (g : α → β) (l : List (Nat × α)) (key : Nat) (v : α) :
    (assocPut l key v).map (fun e => (e.1, g e.2)) = assocPut (l.map fun e => (e.1, g e.2)) key (g v) := by
  induction l with
  | nil => rfl
  | cons e l ih => simp only [assocPut, List.map_cons]; split_ifs <;> simp [ih]

theorem assocUpdate_of_not_listed {α : Type} {l : List (Nat × α)} {key : Nat} (h : ∀ e ∈ l, e.1 ≠ key) (f : α → α) :
    assocUpdate l key f = l :=
  (List.map_congr_left fun e he => if_neg (h e he)).trans (List.map_id' l)

/-- Where a key is listed, listing a value under it replaces the one that stands there. -/
theorem assocPut_eq_assocUpdate {α : Type} {l : List (Nat × α)} (hs : (l.map (·.1)).Pairwise (· < ·)) {key : Nat} {w : α}
    (h : assocGet l key = some w) (v : α) : assocPut l key v = assocUpdate l key fun _ => v := by
  induction l with
  | nil => cases h
  | cons e l ih =>
    simp only [List.map_cons, List.pairwise_cons] at hs
    have above : ∀ x ∈ l, e.1 < x.1 := fun x hx => hs.1 _ (List.mem_map_of_mem hx)
    have tail : assocUpdate (e :: l) key (fun _ => v) =
        (if e.1 = key then (e.1, v) else e) :: assocUpdate l key fun _ => v := rfl
    simp only [assocGet] at h
    rw [tail]
    split at h
    · next same =>
      rw [assocUpdate_of_not_listed fun x hx => by have := above x hx; omega]
      simp [assocPut, same]
    · next other =>
      have after := above _ (assocGet_mem h)
      simp only [assocPut, if_neg (Nat.not_lt.2 (Nat.le_of_lt after)), if_neg other, ih hs.2 h]

/-- Listing an address that stands under no other key leaves no address twice. -/
theorem nodup_assocPut {α : Type} {l : List (Nat × α)} (hs : (l.map (·.1)).Pairwise (· < ·)) (hn : (l.map (·.2)).Nodup)
    {key : Nat} {v : α} (hv : ∀ e ∈ l, e.2 = v → e.1 = key) : ((assocPut l key v).map (·.2)).Nodup := by
  induction l with
  | nil => simp [assocPut]
  | cons e l ih =>
    simp only [List.map_cons, List.pairwise_cons, List.nodup_cons] at hs hn
    have above : ∀ x ∈ l, e.1 < x.1 := fun x hx => hs.1 _ (List.mem_map_of_mem hx)
    have later : ∀ x ∈ l, x.2 = v → x.1 = key := fun x hx => hv x (List.mem_cons_of_mem _ hx)
    have absent (hk : key ≤ e.1) : v ∉ l.map (·.2) := fun hm => by
      obtain ⟨x, hx, hxv⟩ := List.mem_map.1 hm
      have := above x hx
      have := later x hx hxv
      omega
    simp only [assocPut]
    split_ifs with before same
    · have head : e.2 ≠ v := fun hc => by have := hv e (List.mem_cons_self ..) hc; omega
      simp only [List.map_cons, List.nodup_cons, List.mem_cons, not_or]
      exact ⟨⟨head.symm, absent (by omega)⟩, hn⟩
    · exact List.nodup_cons.2 ⟨absent (by omega), hn.2⟩
    · refine List.nodup_cons.2 ⟨fun hm => ?_, ih hs.2 hn.2 later⟩
      obtain ⟨x, hx, hxe⟩ := List.mem_map.1 hm
      rcases mem_assocPut hx with rfl | hx
      · exact same (hv e (List.mem_cons_self ..) hxe.symm)
      · exact hn.1 (List.mem_map.2 ⟨x, hx, hxe⟩)

/-! ## What leaves the tables alone -/

/-- The laws of the three tables together. -/
def State.tablesSound (s : State) : Prop := s.recordsSound ∧ s.stationMapSound ∧ s.unlistedSound

/-- `t` holds the records of `s`, with their provisioning fields, the Station Map and the Unlisted Queue of `s`. -/
structure State.SameTables (s t : State) : Prop where
  provisions : t.tt.records.map (fun e => (e.1, e.2.provision)) = s.tt.records.map fun e => (e.1, e.2.provision)
  stationMap : t.tt.stationMap = s.tt.stationMap
  queue : t.uq.queue = s.uq.queue

/-- The entries the Station Map holds where it mirrors the records (R22). -/
def State.mirror (s : State) : List (Nat × Address) := s.tt.records.map fun e => (e.1, e.2.addr)

theorem State.keys_mirror (s : State) : s.mirror.map (·.1) = s.ids := List.map_map ..

namespace State.SameTables

variable {s t u : State}

theorem of_eq (htt : t.tt = s.tt) (huq : t.uq = s.uq) : s.SameTables t := ⟨by rw [htt], by rw [htt], by rw [huq]⟩

theorem trans (h₁ : s.SameTables t) (h₂ : t.SameTables u) : s.SameTables u :=
  ⟨h₂.provisions.trans h₁.provisions, h₂.stationMap.trans h₁.stationMap, h₂.queue.trans h₁.queue⟩

/-- What holds of the tables from a state that has those of `s` holds of them from `s`. -/
theorem after (h : t.SameTables u) (htt : t.tt = s.tt) (huq : t.uq = s.uq) : s.SameTables u := (of_eq htt huq).trans h

theorem update (s : State) (id : Nat) {f : Record → Record} (hf : KeepsProvision f) : s.SameTables (s.update id f) := by
  refine ⟨?_, rfl, rfl⟩
  simp only [State.update_tt, assocUpdate, List.map_map]
  exact List.map_congr_left fun e _ => by simp only [Function.comp]; split <;> simp only [hf e.2]

theorem updateAll (s : State) {f : Nat → Record → Record} (hf : ∀ id, KeepsProvision (f id)) :
    s.SameTables (s.updateAll f) := by
  refine ⟨?_, rfl, rfl⟩
  simp only [State.updateAll_tt, List.map_map]
  exact List.map_congr_left fun e _ => by simp only [Function.comp, hf e.1 e.2]

/-- Operations on records that keep their provisioning fields leave the tables alone. -/
theorem closed : ProvisionClosed State.SameTables where
  refl _ := of_eq rfl rfl
  trans := trans
  notify s kind id values := of_eq (s.notify_tt kind id values) (s.notify_uq kind id values)
  setSum _ _ := of_eq rfl rfl
  setWaitList _ _ := of_eq rfl rfl
  noteShed _ _ := of_eq rfl rfl
  noteLost _ _ := of_eq rfl rfl
  update s id _ hf := update s id hf
  updateAll s _ hf := updateAll s hf

theorem same (s : State) : s.SameTables s := closed.refl s

theorem mirror (h : s.SameTables t) : t.mirror = s.mirror := by
  have addresses := congrArg (List.map fun e => (e.1, e.2.1)) h.provisions
  simpa only [State.mirror, List.map_map, Function.comp_def, Record.provision] using addresses

theorem ids (h : s.SameTables t) : t.ids = s.ids := by rw [← State.keys_mirror, h.mirror, State.keys_mirror]

/-! ### The marker, the RUN entry and the map -/

theorem budgetStage (s : State) : s.SameTables s.budgetStage := of_eq s.budgetStage_tt s.engineOnly_budgetStage.uq

theorem markerInRun (s : State) : s.SameTables s.markerInRun := by
  have stages := closed.marker.foldl (op := runStage (Config.cancelRank s.raceTick)) (fun t stage => by
    by_cases hb : stage = .budget
    · subst hb; exact budgetStage t
    · exact closed.marker.runStage _ t hb) (interleave (Config.markerPicks s.raceTick) otStages acStages) s.countMarker
  exact ⟨stages.provisions, stages.stationMap, stages.queue⟩

theorem leaveRun (s : State) (m : Mode) : s.SameTables (s.leaveRun m) :=
  (updateAll { s with si := { s.si with mode := m, watchdog := none } } (f := fun _ => clearPoll) fun _ _ => rfl).after rfl rfl

theorem takeMarker (s : State) (frame : FrameNumber) : s.SameTables (s.takeMarker frame) := by
  simp only [State.takeMarker]
  split
  · exact of_eq rfl rfl
  · exact (markerInRun (s.recordFrame frame)).after rfl rfl
  · exact ((closed.notify ((s.setMode .run).recordFrame frame) _ _ _).trans (markerInRun _)).after rfl rfl

theorem reportRegion (s : State) (es : List MapEntry) : s.SameTables (s.reportRegion es) := by
  simp only [State.reportRegion]
  split
  · exact same s
  · exact (closed.notify s _ _ _).trans (of_eq rfl rfl)

theorem setOutstanding (s : State) (frame : FrameNumber) (ids : List Nat) : s.SameTables (s.setOutstanding frame ids) :=
  updateAll s fun id r => by split <;> rfl

theorem entryStage (s : State) (k : Nat) : s.SameTables (s.entryStage k) := by
  simp only [State.entryStage]
  split
  · exact updateAll s fun _ => keepsProvision_reclamp _
  · exact (updateAll s fun _ => keepsProvision_recosted _).trans (closed.setSum _ _)
  · exact of_eq s.entryLevel_tt (State.engineOnly_entryStage s 3).uq
  · exact closed.marker.shedCheck s false
  · exact same s

theorem installProfiles (s : State) (t : List ProfileEntry) (reclamped : Nat) :
    s.SameTables (s.installProfiles t reclamped) :=
  (updateAll { s with lm := { profiles := t } } (f := fun id r => if reclamped < id then reclamp t r else r) fun id r => by
    split
    · exact keepsProvision_reclamp t r
    · rfl).after rfl rfl

theorem countStorm (s : State) : s.SameTables s.countStorm := by
  simp only [State.countStorm]
  split
  · exact same s
  · split
    · exact (closed.notify (s.setStorm none) _ _ _).after rfl rfl
    · exact of_eq rfl rfl

/-! ### Commands on one terminal -/

theorem onRecord {id : Byte} {f : Nat → Record → State × Reply}
    (h : ∀ r, s.record? id.toNat = some r → s.SameTables (f id.toNat r).1) : s.SameTables (s.onRecord id f).1 := by
  simp only [State.onRecord]
  split
  · exact same s
  · split
    · exact same s
    · next r hr => exact h r hr

/-- A record held, with what its state held of the accounts given up before (R28, R29). -/
theorem held {f : Record → Record} (h : s.SameTables t) (id : Nat) (state : TState)
    (hf : KeepsProvision f := by exact fun _ => rfl) : s.SameTables ((t.update id f).notifyHoldGranted id state) :=
  closed.thenNotify (closed.thenUpdate h id hf) _ _ _

theorem holdReentry (s : State) (id : Nat) (r : Record) : s.SameTables (s.holdReentry id r) := by
  simp only [State.holdReentry]
  split
  · exact held (closed.setWaitList s _) id _
  · exact held (same s) id _

theorem holdService (s : State) (id : Nat) (r : Record) : s.SameTables (s.holdService id r) := by
  have sum : s.SameTables (if r.state.committed = true then s.setSum (s.ac.committedSum - r.cost) else s) := by
    split
    · exact closed.setSum s _
    · exact same s
  simp only [State.holdService]
  split
  · exact held (sum.trans (closed.setWaitList _ _)) id _
  · exact held sum id _

theorem holdCommand (s : State) (id : Byte) : s.SameTables (s.holdCommand id).1 := onRecord fun r _ => by
  cases r.state with
  | held => exact same s
  | ranging => exact closed.update s _
  | lost => exact holdReentry s _ r
  | polling => exact holdReentry s _ r
  | admitWait => exact holdReentry s _ r
  | _ => exact holdService s _ r

theorem releaseCommand (s : State) (id : Byte) : s.SameTables (s.releaseCommand id).1 := onRecord fun r _ => by
  split_ifs
  · exact closed.update s _
  · exact closed.update s _
  · exact same s

theorem forceLossCommand (s : State) (id : Byte) : s.SameTables (s.forceLossCommand id).1 := by
  simp only [State.forceLossCommand]
  split
  · exact same s
  · refine onRecord fun r _ => ?_
    split
    · exact same s
    · exact closed.marker.lose s _ _

theorem cancelReentryCommand (s : State) (id : Byte) : s.SameTables (s.cancelReentryCommand id).1 := by
  simp only [State.cancelReentryCommand]
  split
  · exact same s
  · exact onRecord fun r _ => closed.update s _

end State.SameTables

end Sys2Proof.Machine
end

section
/-! The law of the tables (R19, R22, R26, R153): the operations that write them, and the step. -/

namespace Sys2Proof.Machine

open Sys2Proof

/-- The ID of a record is a byte that is not 0 (R19). -/
theorem idRange {id : Byte} (h : id ≠ 0) : 1 ≤ id.toNat ∧ id.toNat ≤ Config.maxId := by
  have := id.isLt
  have : id.toNat ≠ 0 := fun hc => h (BitVec.eq_of_toNat_eq hc)
  simp only [Config.maxId]
  omega

/-- An address that passes check 3 of R23 stands in the Station Map under no other ID. -/
theorem not_mappedElsewhere_of_passed {s : State} {e : ProvEntry} (h : s.entryFailure e = none) :
    ∀ p ∈ s.tt.stationMap, p.2 = e.addr → p.1 = e.id.toNat := by
  simp only [State.entryFailure] at h
  split_ifs at h with _ _ elsewhere _
  intro p hp hpa
  simp only [State.mappedElsewhere, Bool.not_eq_true, List.any_eq_false, Bool.and_eq_true, beq_iff_eq, bne_iff_ne, not_and,
    not_not] at elsewhere
  exact elsewhere p hp hpa

/-! ## An entry that has passed its checks (R24 to R26, R157) -/

theorem reprovisioned_provision (t : List ProfileEntry) (e : ProvEntry) (r : Record) :
    (reprovisioned t e r).provision = (e.addr, entryClass e, e.load.toNat, e.ceiling.toNat) := keepsProvision_reclamp t _

theorem reprovisioned_cls (t : List ProfileEntry) (e : ProvEntry) (r : Record) :
    (reprovisioned t e r).cls = entryClass e := congrArg (·.2.1) (reprovisioned_provision t e r)

theorem reprovisioned_addr (t : List ProfileEntry) (e : ProvEntry) (r : Record) :
    (reprovisioned t e r).addr = e.addr := congrArg Prod.fst (reprovisioned_provision t e r)

section
variable {s : State} {e : ProvEntry}

/-- The entry of a VACANT ID: a record, its address in the Station Map, and the station no longer unlisted. -/
theorem State.applyEntry_of_vacant (h : s.record? e.id.toNat = none) : s.applyEntry e = { s with
    tt := { records := assocPut s.tt.records e.id.toNat (newRecord s.si.markerCount e)
            stationMap := assocPut s.tt.stationMap e.id.toNat e.addr }
    uq := { s.uq with queue := s.uq.queue.filter fun u => u.addr ≠ e.addr } } := by
  simp only [State.applyEntry, h]
  rfl

/-- The entry of a provisioned ID: its record, and its place on the wait list where its class changes. -/
theorem State.applyEntry_of_record {r : Record} (h : s.record? e.id.toNat = some r) : s.applyEntry e = { s with
    tt := { records := assocUpdate s.tt.records e.id.toNat (reprovisioned s.lm.profiles e)
            stationMap := assocPut s.tt.stationMap e.id.toNat e.addr }
    ac := { s.ac with
      waitList := if r.cls ≠ entryClass e ∧ e.id.toNat ∈ s.ac.waitList
        then insertBy (s.update e.id.toNat (reprovisioned s.lm.profiles e)).outranks e.id.toNat
          (s.ac.waitList.filter (· ≠ e.id.toNat))
        else s.ac.waitList }
    uq := { s.uq with queue := s.uq.queue.filter fun u => u.addr ≠ e.addr } } := by
  have cls : ((s.update e.id.toNat (reprovisioned s.lm.profiles e)).record? e.id.toNat).map (·.cls) = some (entryClass e) := by
    rw [State.record?_update, if_pos rfl, h]
    exact congrArg some (reprovisioned_cls ..)
  simp only [State.applyEntry, h, State.reorderWaiting, cls, ne_eq, Option.some.injEq, eq_comm (a := entryClass e),
    State.update_ac]
  split <;> rfl

/-- What every entry that passes writes beside the records. -/
theorem State.applyEntry_map (s : State) (e : ProvEntry) :
    (s.applyEntry e).tt.stationMap = assocPut s.tt.stationMap e.id.toNat e.addr ∧
      (s.applyEntry e).uq = { s.uq with queue := s.uq.queue.filter fun u => u.addr ≠ e.addr } := by
  rcases h : s.record? e.id.toNat with _ | r
  · rw [State.applyEntry_of_vacant h]; exact ⟨rfl, rfl⟩
  · rw [State.applyEntry_of_record h]; exact ⟨rfl, rfl⟩

theorem State.applyEntry_mu (s : State) (e : ProvEntry) : (s.applyEntry e).mu = s.mu := by
  rcases h : s.record? e.id.toNat with _ | r
  · rw [State.applyEntry_of_vacant h]
  · rw [State.applyEntry_of_record h]

end

/-- A record removed with its cost, its place on the wait list and its Station Map entry (R27). -/
theorem State.removeRecord_eq (s : State) (id : Nat) (r : Record) : s.removeRecord id r = { s with
    tt := { records := s.tt.records.filter fun e => e.1 ≠ id, stationMap := s.tt.stationMap.filter fun e => e.1 ≠ id }
    ac := { s.ac with
      committedSum := if r.state.committed then s.ac.committedSum - r.cost else s.ac.committedSum
      waitList := s.ac.waitList.filter (· ≠ id) } } := by
  simp only [State.removeRecord]
  split <;> rfl

/-! ## The law of the tables -/

namespace State.tablesSound

variable {s t : State}

theorem same (hs : s.tablesSound) (h : s.SameTables t) : t.tablesSound := by
  obtain ⟨records, map, unlisted⟩ := hs
  refine ⟨(State.recordsSound_congr h.ids).2 records, ⟨?_, ?_⟩, ?_⟩
  · rw [h.stationMap]; exact map.1.trans h.mirror.symm
  · rw [h.stationMap]; exact map.2
  · rw [State.unlistedSound, h.queue, h.stationMap]; exact unlisted

theorem congr (hs : s.tablesSound) (htt : t.tt = s.tt) (huq : t.uq = s.uq) : t.tablesSound := hs.same (.of_eq htt huq)

theorem keys_stationMap (hs : s.tablesSound) : s.tt.stationMap.map (·.1) = s.ids := by
  rw [hs.2.1.1]; exact s.keys_mirror

/-- The records and the Station Map keep their laws where no address enters the map, and the Unlisted Queue loses entries. -/
theorem shrink (hs : s.tablesSound) (htt : t.tt = s.tt) (hq : t.uq.queue.Sublist s.uq.queue) : t.tablesSound := by
  obtain ⟨records, map, length, nodup, absent⟩ := hs
  refine ⟨(State.recordsSound_congr (by simp only [State.ids, htt])).2 records, by rwa [State.stationMapSound, htt], ?_, ?_, ?_⟩
  · exact hq.length_le.trans length
  · exact nodup.sublist (hq.map _)
  · rw [htt]; exact fun e he => absent e (hq.subset he)

/-! ### Provisioning (R23 to R27) -/

/-- After an entry the records' addresses stand by ID as before, with the entry's own under its ID (R24 to R26). -/
theorem mirror_applyEntry (hs : s.tablesSound) (e : ProvEntry) :
    (s.applyEntry e).mirror = assocPut s.tt.stationMap e.id.toNat e.addr := by
  have mapped : s.tt.stationMap = s.mirror := hs.2.1.1
  have sorted : (s.mirror.map (·.1)).Pairwise (· < ·) := s.keys_mirror ▸ hs.1.1
  rw [mapped]
  rcases hr : s.record? e.id.toNat with _ | r
  · rw [State.applyEntry_of_vacant hr]
    exact map_assocPut Record.addr s.tt.records e.id.toNat (newRecord s.si.markerCount e)
  · have listed : assocGet s.mirror e.id.toNat = some r.addr :=
      (assocGet_map (fun _ => Record.addr) s.tt.records _).trans (congrArg (Option.map Record.addr) hr)
    rw [State.applyEntry_of_record hr, assocPut_eq_assocUpdate sorted listed]
    simp only [State.mirror, assocUpdate, List.map_map]
    refine List.map_congr_left fun p _ => ?_
    simp only [Function.comp]
    split
    · simp only [reprovisioned_addr]
    · rfl

theorem applyEntry (hs : s.tablesSound) {e : ProvEntry} (he : s.entryFailure e = none) : (s.applyEntry e).tablesSound := by
  obtain ⟨map, uq⟩ := s.applyEntry_map e
  have mirror := hs.mirror_applyEntry e
  have elsewhere := not_mappedElsewhere_of_passed he
  have sorted : (s.tt.stationMap.map (·.1)).Pairwise (· < ·) := hs.keys_stationMap ▸ hs.1.1
  have ids : (s.applyEntry e).ids = (assocPut s.tt.stationMap e.id.toNat e.addr).map (·.1) := by
    rw [← State.keys_mirror, mirror]
  have keys := hs.keys_stationMap
  obtain ⟨records, ⟨-, nodup⟩, length, once, absent⟩ := hs
  refine ⟨⟨?_, fun k hk => ?_⟩, ⟨map.trans mirror.symm, ?_⟩, ?_, ?_, fun u hu => ?_⟩
  · rw [ids]; exact keys_assocPut_sorted sorted _ _
  · rw [ids, mem_keys_assocPut, keys] at hk
    rcases hk with rfl | hk
    · exact idRange (entryFailure_eq_none he).1
    · exact records.2 k hk
  · rw [map]; exact nodup_assocPut sorted nodup elsewhere
  · rw [uq]; exact (List.filter_sublist.length_le).trans length
  · rw [uq]; exact once.sublist (List.filter_sublist.map _)
  · rw [uq, List.mem_filter, decide_eq_true_eq] at hu
    rw [map]
    intro hm
    obtain ⟨p, hp, hpu⟩ := List.mem_map.1 hm
    rcases mem_assocPut hp with rfl | hp
    · exact hu.2 hpu.symm
    · exact absent u hu.1 (List.mem_map.2 ⟨p, hp, hpu⟩)

/-- UNLOAD removes the entries of one ID from the records and the Station Map (R27). -/
theorem removeRecord (hs : s.tablesSound) (id : Nat) (r : Record) : (s.removeRecord id r).tablesSound := by
  rw [State.removeRecord_eq]
  obtain ⟨⟨sorted, range⟩, ⟨map, nodup⟩, length, once, absent⟩ := hs
  have fewer {α : Type} (l : List (Nat × α)) : (l.filter fun e => e.1 ≠ id).Sublist l := List.filter_sublist
  refine ⟨⟨sorted.sublist ((fewer _).map _), fun k hk => range k (((fewer _).map _).subset hk)⟩,
    ⟨?_, nodup.sublist ((fewer _).map _)⟩, length, once, fun e he hm => absent e he (((fewer _).map _).subset hm)⟩
  rw [map]
  exact List.filter_map

theorem onRecord (hs : s.tablesSound) {id : Byte} {f : Nat → Record → State × Reply}
    (hf : ∀ r, s.record? id.toNat = some r → (f id.toNat r).1.tablesSound) : (s.onRecord id f).1.tablesSound := by
  simp only [State.onRecord]
  split
  · exact hs
  · split
    · exact hs
    · next r hr => exact hf r hr

theorem unloadCommand (hs : s.tablesSound) (id : Byte) : (s.unloadCommand id).1.tablesSound := hs.onRecord fun r _ => by
  split
  · exact hs
  · exact hs.removeRecord _ r

/-! ### The Unlisted Queue (R153 to R159) -/

/-- A station that the Station Map does not list joins the queue once, and while there is room (R153 to R155). -/
theorem enqueueUnlisted (hs : s.tablesSound) {addr : Address} (hn : s.stationId addr = none) (frame : FrameNumber)
    (m : Measurement) : (s.enqueueUnlisted addr frame m).tablesSound := by
  obtain ⟨records, map, length, once, absent⟩ := hs
  by_cases queued : ∃ e ∈ s.uq.queue, e.addr = addr
  · rw [State.enqueueUnlisted_of_queued queued]
    have address (e : UnlistedEntry) : (if e.addr = addr then updatedEntry frame m e else e).addr = e.addr := by
      split <;> rfl
    refine ⟨records, map, ?_, ?_, fun u hu => ?_⟩
    · exact (List.length_map ..).trans_le length
    · simpa only [State.setUnlisted_uq, List.map_map, Function.comp_def, address] using once
    · obtain ⟨e, he, rfl⟩ := List.mem_map.1 hu
      rw [address]
      exact absent e he
  · have fresh : ∀ e ∈ s.uq.queue, e.addr ≠ addr := fun e he hc => queued ⟨e, he, hc⟩
    rw [State.enqueueUnlisted_of_new fresh]
    split_ifs with room
    · have appended : (s.setUnlisted (s.uq.queue ++ [newEntry addr frame m])).tablesSound := by
        refine ⟨records, map, ?_, ?_, fun u hu => ?_⟩
        · rw [State.setUnlisted_uq, List.length_append]
          exact room
        · rw [State.setUnlisted_uq, List.map_append, List.nodup_append]
          refine ⟨once, List.nodup_singleton _, fun a ha b hb => ?_⟩
          obtain ⟨e, he, rfl⟩ := List.mem_map.1 ha
          rw [List.mem_singleton.1 hb]
          exact fresh e he
        · rcases List.mem_append.1 hu with hu | hu
          · exact absent u hu
          · rw [List.mem_singleton.1 hu]
            intro hm
            obtain ⟨⟨id, a⟩, hp, rfl⟩ := List.mem_map.1 hm
            exact (s.stationId_eq_none a).1 hn id hp
      exact appended.same (SameTables.closed.notify _ _ _ _)
    · exact ⟨records, map, length, once, absent⟩
    · exact same (s := s.setOverrun true) ⟨records, map, length, once, absent⟩ (SameTables.closed.notify _ _ _ _)

theorem contention (hs : s.tablesSound) (b : Burst) : (s.contention b).tablesSound := by
  simp only [State.contention]
  split
  · split
    · exact hs.same (SameTables.closed.contentionListed s _ _)
    · next hn =>
      simp only [State.screen]
      split
      · exact hs.enqueueUnlisted hn _ _
      · exact hs
  · exact hs

/-! ### Commands that take time -/

theorem nextEntry (hs : s.tablesSound) : s.nextEntry.tablesSound := by
  unfold State.nextEntry
  split
  · split
    · exact hs
    · split
      · exact hs.congr rfl rfl
      · next he =>
        have applied := hs.applyEntry he
        dsimp only
        split <;> exact applied.congr rfl rfl
  · exact hs

theorem reclampAll (hs : s.tablesSound) : s.reclampAll.tablesSound := by
  unfold State.reclampAll
  split
  · exact (hs.same (.installProfiles s _ _)).congr rfl rfl
  · exact hs

theorem nextEntryStage (hs : s.tablesSound) (last : Nat) : (State.nextEntryStage last s).tablesSound := by
  unfold State.nextEntryStage
  split
  · split_ifs
    · exact hs
    · exact hs.congr rfl rfl
    · exact (hs.same (.entryStage s _)).congr rfl rfl
  · exact hs

theorem resetStep (hs : s.tablesSound) (step : Nat) : (s.resetStep step).tablesSound := by
  simp only [State.resetStep]
  split
  · simp only [State.resetSi]
    split
    · exact (hs.same (.leaveRun s .config)).congr rfl rfl
    · exact hs.congr rfl rfl
  · refine hs.same (.updateAll s fun _ r => ?_)
    split <;> rfl
  · rw [State.resetAdmission_eq]; exact hs.congr rfl rfl
  · exact hs.congr rfl rfl
  · exact hs.shrink rfl (List.nil_sublist _)
  · exact hs.congr rfl rfl
  · exact hs

theorem nextResetStep (hs : s.tablesSound) : s.nextResetStep.tablesSound := by
  unfold State.nextResetStep
  split
  · split
    · exact hs.congr rfl rfl
    · exact (hs.resetStep _).congr rfl rfl
  · exact hs

theorem abortInFlight (hs : s.tablesSound) : s.abortInFlight.tablesSound := by
  unfold State.abortInFlight
  split
  · exact hs.congr rfl rfl
  · exact (hs.same (.installProfiles s _ _)).congr rfl rfl
  · exact hs.congr rfl rfl
  · exact hs

/-! ### The commands of a cell -/

theorem setModeCommand (hs : s.tablesSound) (tag requested : Byte) : (s.setModeCommand tag requested).1.tablesSound := by
  unfold State.setModeCommand
  split
  case h_2 => exact hs.same (.leaveRun s .config)
  all_goals exact hs.congr rfl rfl

theorem sectorResetCommand (hs : s.tablesSound) (tag : Byte) (through : Nat) :
    (s.sectorResetCommand tag through).1.tablesSound := by
  unfold State.sectorResetCommand
  split
  · exact hs
  · exact repeatOp_kept (fun _ hu => nextResetStep hu) _ (hs.abortInFlight.congr rfl rfl)

theorem perform (hs : s.tablesSound) (tag : Byte) (c : Command) : (s.perform tag c).1.tablesSound := by
  cases c with
  | setMode v => exact hs.setModeCommand tag v
  | loadTerminals es => exact hs.congr rfl rfl
  | unload id => exact hs.unloadCommand id
  | readTerminal id => exact hs.onRecord fun _ _ => hs
  | hold id => exact hs.same (.holdCommand s id)
  | release id => exact hs.same (.releaseCommand s id)
  | forceLoss id => exact hs.same (.forceLossCommand s id)
  | cancelReentry id => exact hs.same (.cancelReentryCommand s id)
  | loadProfiles t =>
    simp only [State.perform, State.loadProfilesCommand]
    split
    · exact hs
    · split <;> exact hs.congr rfl rfl
  | loadBudget b => simp only [State.perform, State.loadBudgetCommand, atArrival]; split <;> exact hs.congr rfl rfl
  | loadLevelTable ths hold =>
    simp only [State.perform, State.loadLevelTableCommand, atArrival]
    split_ifs <;> exact hs.congr rfl rfl
  | loadFilters a b r =>
    simp only [State.perform, State.loadFiltersCommand, atArrival]
    split
    · exact hs
    · split
      · exact hs.shrink rfl (List.Sublist.refl _)
      · exact hs
  | loadSectorParameters v =>
    simp only [State.perform, State.loadSectorParametersCommand, atArrival]
    split
    · exact hs
    · split <;> exact hs.congr rfl rfl
  | storm l => simp only [State.perform, State.stormCommand, atArrival]; split <;> exact hs.congr rfl rfl
  | unlistedRead => simp only [State.perform, State.unlistedReadCommand, atArrival]; split <;> exact hs
  | unlistedRelease =>
    simp only [State.perform, State.unlistedReleaseCommand, atArrival]
    split
    · exact hs
    · next hq => exact hs.shrink rfl (hq ▸ List.sublist_cons_self ..)
  | unlistedClearOverrun => exact hs.shrink rfl (List.Sublist.refl _)
  | readSector a => simp only [State.perform, State.readSectorCommand, atArrival]; split <;> exact hs.congr rfl rfl
  | setNoticeMask m => simp only [State.perform, State.setNoticeMaskCommand, atArrival]; split <;> exact hs.congr rfl rfl
  | sectorReset through => exact hs.sectorResetCommand tag through

theorem carryOut (hs : s.tablesSound) (tag : Byte) (c : Command) : (s.carryOut tag c).tablesSound := by
  have performed := hs.perform tag c
  simp only [State.carryOut]
  split
  · next hu => rw [hu] at performed; exact performed.congr rfl rfl
  · next hu => rw [hu] at performed; exact performed

theorem takeCommand (hs : s.tablesSound) (tag : Byte) (c : Command) : (s.takeCommand tag c).tablesSound := by
  simp only [State.takeCommand]
  split_ifs
  · exact hs.congr rfl rfl
  · exact hs.congr rfl rfl
  · exact hs.carryOut tag c

theorem takeCell (hs : s.tablesSound) (payload : List Byte) : (s.takeCell payload).tablesSound := by
  simp only [State.takeCell]
  split
  · split
    · exact hs.congr rfl rfl
    · split
      · exact hs.congr rfl rfl
      · exact hs.congr rfl rfl
      · exact hs.carryOut _ _
  · exact hs.congr rfl rfl

/-! ### One step -/

theorem powerOn (s : State) : s.powerOn.tablesSound :=
  congr (s := State.reset) ⟨by decide, by decide, by decide⟩ rfl rfl

theorem setHeader (hs : s.tablesSound) (x : HeaderState) : (s.setHeader x).tablesSound := hs.congr rfl rfl

theorem resetFalls (hs : s.tablesSound) : s.resetFalls.tablesSound := by
  rw [State.resetFalls_eq]; exact hs.congr rfl rfl

theorem emission (hs : s.tablesSound) : s.settleEmission.tablesSound := by
  rcases hd : s.paths.emissionDue with _ | e
  · rwa [State.settleEmission_of_none hd]
  · rw [State.settleEmission_of_some hd]; exact hs.congr rfl rfl

theorem watchdogExpires (hs : s.tablesSound) : s.watchdogExpires.tablesSound := by
  simp only [State.watchdogExpires]
  split
  · exact (hs.same ((SameTables.leaveRun s .coasting).trans (SameTables.closed.notify _ _ _ _))).congr rfl rfl
  · exact hs

theorem ifEnds (hs : s.tablesSound) (ends : Bool) (h : s.SameTables t) : (s.ifEnds ends t).tablesSound := by
  simp only [State.ifEnds]
  split
  · exact hs.same h
  · exact hs

/-- The visit of a record at which a countdown may end. -/
theorem visit {id : Nat} {ends : Record → Bool} (hs : s.tablesSound) (h : s.SameTables t) :
    (s.withRecord id fun r => s.ifEnds (ends r) t).tablesSound := by
  simp only [State.withRecord]
  split
  · exact hs.ifEnds _ h
  · exact hs

/-- What each part of a step makes of the tables. -/
theorem keptByParts : State.KeptByParts State.tablesSound where
  queue _ hs := hs.congr rfl rfl
  race hs := hs.congr rfl rfl
  ports _ _ _ hs := hs.congr rfl rfl
  powerOn _ := powerOn _
  resetFalls := resetFalls
  reserve _ _ hs := hs.congr rfl rfl
  wait _ hs := hs.congr rfl rfl
  discard _ hs := hs.congr rfl rfl
  cell payload _ hs := (hs.setHeader .none).takeCell payload
  command tag c _ hs := (hs.setHeader .none).takeCommand tag c
  marker frame hs := hs.same (.takeMarker _ frame)
  malformed _ _ hs := (hs.same (SameTables.closed.notify _ _ _ _)).congr rfl rfl
  edited es frame ids _ _ _ hs :=
    (hs.same ((SameTables.reportRegion _ es).trans (.setOutstanding _ frame ids))).congr rfl rfl
  emitted id _ hs := hs.same (SameTables.closed.update _ id)
  grantReport id o snr _ hs := hs.same (SameTables.closed.grantReport _ id o snr)
  pollReport select id frame m _ hs := hs.same (SameTables.closed.pollReport select _ id frame m)
  contention b _ hs := hs.contention b
  endFrame select frame _ hs := hs.same (SameTables.closed.endFrame select _ frame)
  emission := emission
  sent _ hs := hs.congr rfl rfl
  cleared _ hs := hs.congr rfl rfl
  watchdog := watchdogExpires
  entryStage last hs := hs.nextEntryStage last
  entry := nextEntry
  reclamp := reclampAll
  holdOff id hs := hs.visit (SameTables.closed.update _ id (markerChange_holdOffVisit _).keepsProvision)
  probation id hs := hs.visit (SameTables.closed.update _ id markerChange_probationVisit.keepsProvision)
  confirmTimer id hs := hs.visit (SameTables.closed.marker.confirmVisit _ id)
  storm hs := hs.ifEnds _ (.countStorm _)
  levelHold hs := hs.ifEnds (t := State.holdLevel _) _ (.of_eq rfl rfl)
  resetStep := nextResetStep

end State.tablesSound

/-- Settles O56: the tables are sound together, and every part of a step keeps them so. -/
theorem tablesKeptByEveryStep : Obligations.TablesKeptByEveryStep :=
  fun _ _ hr hm hu he => State.tablesSound.keptByParts.step ⟨hr, hm, hu⟩ he

end Sys2Proof.Machine
end

section
/-! Provisioning (R23 to R26, R169): LOAD_TERMINALS at its arrival, the checks of an entry in their order, and an entry that
passes, for a VACANT ID and for a provisioned record. -/

namespace Sys2Proof.Machine

open Sys2Proof

/-! ## Cells that are answered -/

/-- A cell whose lists have the wrong lengths is answered BAD_LENGTH (R163 check 4). -/
theorem exec_badLength {row : Instr} {tag : Byte} {c : Command} (hrow : row.dsItem? = some (.command tag c))
    (hl : c.lengthOk = false) {s : State} (hs : s.commandReady) :
    exec row s = .next (s.answered tag c.code { status := .badLength }) := by
  have idle : (s.cellRemoved 0).busyFor c.code = false := by simp [State.busyFor, hs.2]
  rw [exec_of_dsItem? hrow, State.receiveDs_command hs.1, State.takeCommand, idle, if_neg (by simp), if_pos hl,
    State.reply_cellRemoved]

/-! ## The checks of an entry (R23) -/

theorem Cls.ofByte_isSome (b : Byte) : (Cls.ofByte b).isSome = true ↔ b.toNat ≤ 2 := by
  unfold Cls.ofByte
  split <;> simp_all
  omega

/-- A class that is read from a byte is the one the byte numbers (12.4). -/
theorem Cls.code_of_ofByte {b : Byte} {c : Cls} (h : Cls.ofByte b = some c) : c.code = b.toNat := by
  unfold Cls.ofByte at h
  split at h <;> cases h <;> simp_all [Cls.code]

theorem entryValuesOk_eq_false (e : ProvEntry) : entryValuesOk e = false ↔
    e.addr = 0 ∨ 2 < e.cls.toNat ∨ 4095 < e.load.toNat ∨ 7 < e.ceiling.toNat := by
  rw [← Bool.not_eq_true]
  simp only [entryValuesOk, Bool.and_eq_true, bne_iff_ne, Cls.ofByte_isSome, decide_eq_true_eq, not_and_or, not_not, not_le,
    or_assoc]

theorem State.mappedElsewhere_iff (s : State) (addr : Address) (id : Nat) :
    s.mappedElsewhere addr id = true ↔ ∃ p ∈ s.tt.stationMap, p.2 = addr ∧ p.1 ≠ id := by
  simp only [State.mappedElsewhere, List.any_eq_true, Bool.and_eq_true, beq_iff_eq, bne_iff_ne]

theorem State.provisionable_eq_false (s : State) (id : Nat) :
    s.provisionable id = false ↔ s.si.mode ≠ .config ∧ ¬ (s.stateOf id = none ∨ s.stateOf id = some .held) := by
  simp only [State.provisionable, Bool.or_eq_false_iff, beq_eq_false_iff_ne, ne_eq, not_or, and_assoc]

/-- The class of an entry whose values have passed their check. -/
theorem ofByte_of_passed {s : State} {e : ProvEntry} (h : s.entryFailure e = none) :
    Cls.ofByte e.cls = some (entryClass e) := by
  simp only [State.entryFailure] at h
  split_ifs at h with _ values
  have known : e.cls.toNat ≤ 2 := by rw [entryValuesOk_eq_false] at values; omega
  obtain ⟨c, hc⟩ := Option.isSome_iff_exists.1 ((Cls.ofByte_isSome _).2 known)
  rw [entryClass, hc]
  rfl

/-! ## An entry in its turn (R169) -/

/-- Without a LOAD_TERMINALS in flight no entry is in turn (log 5). -/
theorem State.nextEntry_of_not {s : State} (h : ∀ tag es k, s.mu.inFlight ≠ some (.loadTerminals tag es k)) :
    s.nextEntry = s := by
  unfold State.nextEntry
  split
  · next hf => exact absurd hf (h _ _ _)
  · rfl

section
variable {s : State} {tag : Byte} {es : List ProvEntry} {k : Nat} {e : ProvEntry}
  (hf : s.mu.inFlight = some (.loadTerminals tag es k)) (he : es[k]? = some e)

include hf he

/-- An entry that fails a check completes the command with the figures of R169. -/
theorem State.nextEntry_of_failure {status : Status} (h : s.entryFailure e = some status) : s.nextEntry =
    s.completed tag 0x02 { status := status, failing := k + 1, remaining := es.length - k } := by
  simp only [State.nextEntry, hf, he, h, State.complete_eq]

/-- An entry that passes is applied; the command goes on to the next entry, or completes after the last. -/
theorem State.nextEntry_of_passed (h : s.entryFailure e = none) : s.nextEntry =
    if k + 1 = es.length then (s.applyEntry e).completed tag 0x02 { status := .ok }
    else (s.applyEntry e).setInFlight (some (.loadTerminals tag es (k + 1))) := by
  simp only [State.nextEntry, hf, he, h, State.complete_eq]
  rfl

/-- What an entry that passes makes of the command in flight and the Insertion Queue, beside what applying it makes of the
other blocks. -/
theorem exec_provisioningEntry (hup : s.paths.resetLow = false) (h : s.entryFailure e = none) :
    ∃ mu insertion, exec .provisioningEntry s = .next { s.applyEntry e with mu := mu, insertion := insertion } ∧
      (k + 1 < es.length → mu = { s.mu with inFlight := some (.loadTerminals tag es (k + 1)) } ∧ insertion = s.insertion) ∧
      (k + 1 = es.length → mu = { s.mu with inFlight := none } ∧
        insertion = (s.completed tag 0x02 { status := .ok }).insertion) := by
  have passed := State.nextEntry_of_passed hf he h
  have mu := s.applyEntry_mu e
  have insertion := (State.QueuesUntouched.applyEntry s e).insertion
  by_cases last : k + 1 = es.length
  · rw [if_pos last] at passed
    refine ⟨_, _, next_whenUp hup passed, fun more => absurd last (Nat.ne_of_lt more), fun _ => ⟨?_, ?_⟩⟩
    · simp only [mu]
    · simp only [State.completed, insertion]
  · rw [if_neg last] at passed
    refine ⟨_, _, next_whenUp hup passed, fun _ => ⟨?_, insertion⟩, fun same => absurd same last⟩
    simp only [mu]

end

/-- Settles O13: the arrival, the order of the checks, no entry in turn, and the first check that fails. -/
theorem provisioningEntriesAreChecked : Obligations.ProvisioningEntriesAreChecked := by
  refine ⟨fun s tag es hs => ⟨fun h₁ h₈ => ?_, fun bad => ?_⟩, fun s e => ?_, fun s hn => ?_,
    fun s tag es k e status hup hf he hfail => ?_⟩
  · have fits : (Command.loadTerminals es).lengthOk = true := by simp [Command.lengthOk, h₁, h₈]
    rw [exec_of_commandReady rfl fits hs, State.carryOut_of_none rfl]
    rfl
  · have unfit : (Command.loadTerminals es).lengthOk = false := by
      simpa only [Command.lengthOk, ← Bool.not_eq_true, Bool.and_eq_true, decide_eq_true_eq] using bad
    exact exec_badLength rfl unfit hs
  · simp only [State.entryFailure, entryValuesOk_eq_false, State.mappedElsewhere_iff, State.provisionable_eq_false]
  · exact congrArg Host.Outcome.next (by rw [State.nextEntry_of_not hn, State.whenUp, ite_self])
  · exact next_whenUp hup (State.nextEntry_of_failure hf he hfail)

/-- Settles O14, from the state an entry for a VACANT ID gives (`State.applyEntry_of_vacant`). -/
theorem provisioningEntryCreates : Obligations.ProvisioningEntryCreates := by
  intro s tag es k e hup hf he hpass hvacant
  obtain ⟨mu, insertion, ht, more, last⟩ := exec_provisioningEntry hf he hup hpass
  rw [State.applyEntry_of_vacant hvacant] at ht
  refine ⟨_, ht, ⟨newRecord s.si.markerCount e, ?_, ⟨rfl, Cls.code_of_ofByte (ofByte_of_passed hpass), rfl, rfl⟩, rfl,
    ⟨rfl, rfl, rfl⟩, ⟨rfl, rfl, rfl, rfl, rfl⟩, ⟨rfl, rfl, rfl, rfl⟩, ⟨rfl, rfl, rfl, rfl⟩, ⟨rfl, rfl, rfl, rfl⟩,
    ⟨rfl, rfl, rfl, rfl⟩, rfl, rfl⟩, fun id hid => ?_, ?_, fun id hid => ?_, rfl, more, last, rfl, rfl, rfl, rfl, rfl, rfl,
    rfl, rfl⟩
  · exact (assocGet_assocPut ..).trans (if_pos rfl)
  · exact (assocGet_assocPut ..).trans (if_neg hid)
  · exact (assocGet_assocPut ..).trans (if_pos rfl)
  · exact (assocGet_assocPut ..).trans (if_neg hid)

/-- Settles O15, from the state an entry for a provisioned record gives (`State.applyEntry_of_record`). -/
theorem provisioningEntryReplaces : Obligations.ProvisioningEntryReplaces := by
  intro s tag es k e r hup hs hf he hpass hr
  obtain ⟨mu, insertion, ht, more, last⟩ := exec_provisioningEntry hf he hup hpass
  rw [State.applyEntry_of_record hr] at ht
  refine ⟨_, entryClass e, ht, ofByte_of_passed hpass, ?_, rfl, fun stays => ?_, fun changes listed => ?_, rfl, more, last,
    rfl, rfl, rfl, rfl, rfl, rfl, rfl⟩
  · refine assocUpdate_congr hs.1 hr ?_
    rw [reprovisioned, reclamp_eq_min]
    rfl
  · have kept : ¬ (r.cls ≠ entryClass e ∧ e.id.toNat ∈ s.ac.waitList) := fun ⟨changes, listed⟩ =>
      stays.elim changes fun absent => absent listed
    simp only [if_neg kept]
  · simp only [if_pos (And.intro changes listed)]
    rfl

end Sys2Proof.Machine
end

section
/-! The loss procedure (R31, R59 to R63), and the commands that name one terminal (R27 to R33, R68, R69): their refusals, and what
they do where they are carried out. -/

namespace Sys2Proof.Machine

open Sys2Proof

/-! ## The loss procedure -/

theorem TState.waiting_iff (st : TState) : st.waiting = true ↔ st = .admitWait ∨ st = .shed := by
  cases st <;> decide

theorem raisesBackoff_iff (reason : LossReason) (r : Record) : raisesBackoff reason r = true ↔
    reason = .rangingFailed ∨ reason = .confirmTimeout ∨ (reason = .fade ∧ 0 < r.probation) := by
  cases reason <;> simp [raisesBackoff]

theorem lossGrantsHold_iff (reason : LossReason) (r : Record) : lossGrantsHold reason r = true ↔
    r.state = .ranging ∧ r.holdReq = true ∧ (reason = .rangingFailed ∨ reason = .admin ∨ reason = .cancelled) := by
  simp only [lossGrantsHold, Bool.and_eq_true, Bool.or_eq_true, beq_iff_eq, or_assoc, and_assoc]

/-- The airtime account and the wait list once a record no longer counts in either (R59 steps 2 and 11). -/
def State.accountsLeft (s : State) (id : Nat) (r : Record) : State := { s with ac := { s.ac with
  committedSum := if r.state.committed then s.ac.committedSum - r.cost else s.ac.committedSum
  waitList := if r.state.waiting then s.ac.waitList.filter (· ≠ id) else s.ac.waitList } }

theorem State.accountsLeft_eq (s : State) (id : Nat) (r : Record) :
    (let s := if r.state.committed then s.setSum (s.ac.committedSum - r.cost) else s
     if r.state.waiting then s.leaveWaitList id else s) = s.accountsLeft id r := by
  simp only [State.accountsLeft]
  split_ifs <;> rfl

/-- The loss of a provisioned terminal: its accounts, its record and its notices (R59). -/
theorem State.lose_of_record {s : State} (hs : s.recordsSound) {id : Nat} {r : Record} (h : s.record? id = some r)
    (reason : LossReason) : s.lose reason id =
      (let told := ((s.accountsLeft id r).put id (lostRecord s.params.holdOffBase s.si.markerCount reason r)).notify
        .terminalLost (some id) [reason.code, r.state.code, holdOffAfterLoss s.params.holdOffBase reason r]
       if lossGrantsHold reason r then told.notify .holdGranted (some id) [TState.ranging.code] else told) := by
  have put := State.update_eq_put (s := s.accountsLeft id r) hs h
    (lostRecord s.params.holdOffBase s.si.markerCount reason)
  rw [State.lose, State.withRecord_of_record? h, ← put]
  exact congrArg (fun t : State =>
    (let told := (t.update id (lostRecord t.params.holdOffBase t.si.markerCount reason)).notify
        .terminalLost (some id) [reason.code, r.state.code, holdOffAfterLoss t.params.holdOffBase reason r]
     if lossGrantsHold reason r then told.notifyHoldGranted id .ranging else told)) (s.accountsLeft_eq id r)

/-- Settles O19: the accounts, the backoff, the hold-off and the record one after another. -/
theorem lossProcedure : Obligations.LossProcedure := by
  intro s reason id r hs h grant b holdOff lost accounts told
  have left : s.accountsLeft id r = accounts := by
    simp only [State.accountsLeft, TState.committed_iff, TState.waiting_iff]
    rfl
  have exponent : backoffAfterLoss reason r = b := by simp only [backoffAfterLoss, raisesBackoff_iff]; rfl
  have off : holdOffAfterLoss s.params.holdOffBase reason r = holdOff := by
    simp only [holdOffAfterLoss, lossGrantsHold_iff, exponent]
    rfl
  have request : (r.holdReq && !lossGrantsHold reason r) = if grant then false else r.holdReq := by
    have granted := lossGrantsHold_iff reason r
    by_cases hg : grant
    · rw [if_pos hg, granted.2 hg, Bool.not_true, Bool.and_false]
    · rw [if_neg hg, Bool.eq_false_iff.2 (mt granted.1 hg), Bool.not_false, Bool.and_true]
  have record : lostRecord s.params.holdOffBase s.si.markerCount reason r = lost := by
    simp only [lostRecord, stateAfterLoss, exponent, off, request, lossGrantsHold_iff]
    rfl
  rw [State.lose_of_record hs h, left, record, off]
  simp only [lossGrantsHold_iff]
  rfl

/-! ## Commands that are answered at their arrival -/

/-- A command carried out on the part with its cell removed: what it makes of the state, and its answer (R164). -/
theorem exec_answered {row : Instr} {tag : Byte} {c : Command} (hrow : row.dsItem? = some (.command tag c))
    (hl : c.lengthOk = true) {s t : State} (hs : s.commandReady) {r : Reply}
    (h : (s.cellRemoved 0).perform tag c = atArrival (t.cellRemoved 0, r)) : exec row s = .next (t.answered tag c.code r) := by
  rw [exec_of_commandReady hrow hl hs, State.carryOut_of_reply h, State.reply_cellRemoved]

section
variable (s : State)

theorem State.onRecord_badId (f : Nat → Record → State × Reply) : s.onRecord 0 f = (s, { status := .badId }) := rfl

theorem State.onRecord_vacant {id : Byte} (hid : id ≠ 0) (h : s.record? id.toNat = none) (f : Nat → Record → State × Reply) :
    s.onRecord id f = (s, { status := .vacant }) := by simp only [State.onRecord, if_neg hid, h]

theorem State.onRecord_of_record {id : Byte} (hid : id ≠ 0) {r : Record} (h : s.record? id.toNat = some r)
    (f : Nat → Record → State × Reply) : s.onRecord id f = f id.toNat r := by simp only [State.onRecord, if_neg hid, h]

/-- A notice does not read the ports and the Insertion Queue. -/
theorem State.notify_cellRemoved (n : Nat) (kind : NoticeKind) (id : Option Nat) (values : List Int) :
    (s.cellRemoved n).notify kind id values = (s.notify kind id values).cellRemoved n := by
  have commutes {t : State} (there : (s.cellRemoved n).notify kind id values = t.cellRemoved n)
      (here : s.notify kind id values = t) : (s.cellRemoved n).notify kind id values = (s.notify kind id values).cellRemoved n := by
    rw [there, here]
  by_cases masked : s.noticeEnabled kind = false
  · exact commutes (if_pos masked) (if_pos masked)
  · have enabled : ¬ (s.cellRemoved n).noticeEnabled kind = false := masked
    by_cases full : Config.noticePlaces ≤ s.mu.notices.length
    · have full' : Config.noticePlaces ≤ (s.cellRemoved n).mu.notices.length := full
      exact commutes ((if_neg enabled).trans (if_pos full')) ((if_neg masked).trans (if_pos full))
    · have room : ¬ Config.noticePlaces ≤ (s.cellRemoved n).mu.notices.length := full
      exact commutes ((if_neg enabled).trans (if_neg room)) ((if_neg masked).trans (if_neg full))

/-- FORCE_LOSS and CANCEL_REENTRY in RUN meet the checks of their ID (R68, R69). -/
theorem State.forceLossCommand_of_run (h : s.si.mode = .run) (id : Byte) : s.forceLossCommand id = s.onRecord id fun id r =>
    if r.state = .held then (s, { status := .wrongState }) else (s.lose .admin id, Reply.ok) := if_neg (not_not.2 h)

theorem State.cancelReentryCommand_of_run (h : s.si.mode = .run) (id : Byte) : s.cancelReentryCommand id =
    s.onRecord id fun id _ => (s.update id fun r => { r with cancelReq := true }, Reply.ok) := if_neg (not_not.2 h)

end

/-- The six commands that name one terminal are all answered with one reply, and change nothing else. -/
structure AnsweredAlike (s : State) (tag id : Byte) (reply : Reply) : Prop where
  unload : exec (.unload tag id) s = .next (s.answered tag 0x03 reply)
  readTerminal : exec (.readTerminal tag id) s = .next (s.answered tag 0x04 reply)
  hold : exec (.hold tag id) s = .next (s.answered tag 0x05 reply)
  release : exec (.release tag id) s = .next (s.answered tag 0x06 reply)
  forceLoss : s.si.mode = .run → exec (.forceLoss tag id) s = .next (s.answered tag 0x07 reply)
  cancelReentry : s.si.mode = .run → exec (.cancelReentry tag id) s = .next (s.answered tag 0x08 reply)

/-- An ID check that fails is answered alike by every command that names one terminal (R27, R28, R32, R33, R68, R69). -/
theorem answeredAlike {s : State} (hs : s.commandReady) (tag : Byte) {id : Byte} {reply : Reply}
    (h : ∀ f, (s.cellRemoved 0).onRecord id f = (s.cellRemoved 0, reply)) : AnsweredAlike s tag id reply where
  unload := exec_answered (c := .unload id) rfl rfl hs (congrArg atArrival (h _))
  readTerminal := exec_answered (c := .readTerminal id) rfl rfl hs (congrArg atArrival (h _))
  hold := exec_answered (c := .hold id) rfl rfl hs (congrArg atArrival (h _))
  release := exec_answered (c := .release id) rfl rfl hs (congrArg atArrival (h _))
  forceLoss hm := exec_answered (c := .forceLoss id) rfl rfl hs <| congrArg atArrival <|
    ((s.cellRemoved 0).forceLossCommand_of_run hm id).trans (h _)
  cancelReentry hm := exec_answered (c := .cancelReentry id) rfl rfl hs <| congrArg atArrival <|
    ((s.cellRemoved 0).cancelReentryCommand_of_run hm id).trans (h _)

/-- Settles O16: the ID checks, the mode, then the state of the record. -/
theorem terminalCommandsRefuse : Obligations.TerminalCommandsRefuse := by
  intro s tag id hs
  refine ⟨?_, fun hid hv => ?_, fun hm => ⟨?_, ?_⟩,
    fun hid r hr => ⟨fun hm hst => ?_, fun hm hst => ?_, fun hst hq => ?_⟩⟩
  · rintro rfl
    obtain ⟨unload, read, hold, release, force, cancel⟩ := answeredAlike hs tag (s.cellRemoved 0).onRecord_badId
    exact ⟨unload, read, hold, release, fun hm => ⟨force hm, cancel hm⟩⟩
  · obtain ⟨unload, read, hold, release, force, cancel⟩ := answeredAlike hs tag ((s.cellRemoved 0).onRecord_vacant hid hv)
    exact ⟨unload, read, hold, release, fun hm => ⟨force hm, cancel hm⟩⟩
  · exact exec_answered (c := .forceLoss id) rfl rfl hs (congrArg atArrival (if_pos hm))
  · exact exec_answered (c := .cancelReentry id) rfl rfl hs (congrArg atArrival (if_pos hm))
  · refine exec_answered (c := .unload id) rfl rfl hs (congrArg atArrival (?_ : State.unloadCommand _ id = _))
    exact ((s.cellRemoved 0).onRecord_of_record hid hr _).trans (if_pos ⟨hm, hst⟩)
  · refine exec_answered (c := .forceLoss id) rfl rfl hs (congrArg atArrival (?_ : State.forceLossCommand _ id = _))
    rw [(s.cellRemoved 0).forceLossCommand_of_run hm]
    exact ((s.cellRemoved 0).onRecord_of_record hid hr _).trans (if_pos hst)
  · have free : ¬ (r.state = .ranging ∧ r.holdReq = true) := fun ⟨hranging, hreq⟩ =>
      hq.elim (fun hc => hc hranging) fun hc => by rw [hreq] at hc; cases hc
    refine exec_answered (c := .release id) rfl rfl hs (congrArg atArrival (?_ : State.releaseCommand _ id = _))
    exact ((s.cellRemoved 0).onRecord_of_record hid hr _).trans ((if_neg hst).trans (if_neg free))

end Sys2Proof.Machine
end

section
/-! The commands that name one terminal where they are carried out (R27 to R30, R32, R33, R68, R69), with the bytes of
READ_TERMINAL (12.5). -/

namespace Sys2Proof.Machine

open Sys2Proof

/-! ## READ_TERMINAL (R33, 12.5) -/

/-- A terminal that is not on the wait list has place 0. -/
theorem State.waitPlace_of_not_listed {s : State} {id : Nat} (h : id ∉ s.ac.waitList) : s.waitPlace id = 0 := by
  have absent : s.ac.waitList.findIdx? (· == id) = none := by
    rw [List.findIdx?_eq_none_iff]
    exact fun k hk => beq_false_of_ne fun hc => h (hc ▸ hk)
  simp only [State.waitPlace, absent]

/-- A listed terminal's place counts those before its first place on the list, from 1 at the head. -/
theorem State.waitPlace_of_listed {s : State} {id : Nat} (h : id ∈ s.ac.waitList) :
    ∃ before after, s.ac.waitList = before ++ id :: after ∧ id ∉ before ∧ s.waitPlace id = before.length + 1 := by
  obtain ⟨before, after, split, absent⟩ := List.eq_append_cons_of_mem h
  have first : before.findIdx? (· == id) = none := by
    rw [List.findIdx?_eq_none_iff]
    exact fun k hk => beq_false_of_ne fun hc => absent (hc ▸ hk)
  refine ⟨before, after, split, absent, ?_⟩
  simp [State.waitPlace, split, List.findIdx?_append, first, List.findIdx?_cons]

theorem bitsByte_six (a b c d e f : Bool) : bitsByte [a, b, c, d, e, f] =
    byteOf ((if a then 1 else 0) + (if b then 2 else 0) + (if c then 4 else 0) + (if d then 8 else 0) +
      (if e then 16 else 0) + (if f then 32 else 0)) := by
  simp [bitsByte, List.zipIdx_cons, add_assoc]

theorem terminalResult_length (r : Record) (place : Nat) : (terminalResult r place).length = 53 := rfl

/-- A HOLD that ends an attempt to come back (R28). -/
theorem State.holdReentry_of_record {s : State} (hs : s.recordsSound) {id : Nat} {r : Record} (h : s.record? id = some r)
    (hc : r.state.committed = false) : s.holdReentry id r =
      ((s.accountsLeft id r).put id (heldFromReentry r)).notify .holdGranted (some id) [r.state.code] := by
  have left : (if r.state.waiting then s.leaveWaitList id else s) = s.accountsLeft id r := by
    simp only [State.accountsLeft, hc]
    split <;> rfl
  have put := State.update_eq_put (s := s.accountsLeft id r) hs h heldFromReentry
  rw [State.holdReentry, left, ← put]
  rfl

/-- A HOLD that ends a service (R29). -/
theorem State.holdService_of_record {s : State} (hs : s.recordsSound) {id : Nat} {r : Record} (h : s.record? id = some r) :
    s.holdService id r =
      ((s.accountsLeft id r).put id (heldFromService r)).notify .holdGranted (some id) [r.state.code] := by
  have put := State.update_eq_put (s := s.accountsLeft id r) hs h heldFromService
  rw [← put]
  exact congrArg (fun t : State => (t.update id heldFromService).notifyHoldGranted id r.state) (s.accountsLeft_eq id r)

/-- The loss procedure does not read the ports and the Insertion Queue. -/
theorem State.lose_cellRemoved {s : State} (hs : s.recordsSound) {id : Nat} {r : Record} (h : s.record? id = some r) (n : Nat)
    (reason : LossReason) : (s.cellRemoved n).lose reason id = (s.lose reason id).cellRemoved n := by
  have told (t : State) (kind : NoticeKind) (values : List Int) := State.notify_cellRemoved t n kind (some id) values
  rw [State.lose_of_record (s := s.cellRemoved n) hs h, State.lose_of_record hs h]
  have left : ((s.cellRemoved n).accountsLeft id r).put id (lostRecord s.params.holdOffBase s.si.markerCount reason r) =
    ((s.accountsLeft id r).put id (lostRecord s.params.holdOffBase s.si.markerCount reason r)).cellRemoved n := rfl
  simp only [State.cellRemoved_params, State.cellRemoved_si, left, told]
  split <;> rfl

/-- Settles O17. -/
theorem terminalCommandsAtArrival : Obligations.TerminalCommandsAtArrival := by
  intro s tag id r hs hsound hid hr place bit messageCode terminalBytes
  have found (f) := (s.cellRemoved 0).onRecord_of_record hid hr f
  have replaced (f : Record → Record) : (s.cellRemoved 0).update id.toNat f = (s.put id.toNat (f r)).cellRemoved 0 :=
    State.update_eq_put (s := s.cellRemoved 0) hsound hr f
  have code : (r.message.map Message.code).getD 0 = messageCode := by
    dsimp only [messageCode]
    cases r.message with
    | none => rfl
    | some m => cases m <;> rfl
  have bytes : terminalResult r place = terminalBytes := by
    simp only [terminalResult, code, bitsByte_six, halfOf, signedHalfOf, terminalBytes, bit, List.append_assoc,
      List.cons_append, List.nil_append]
  refine ⟨fun hm => ?_, ⟨?_, bytes ▸ terminalResult_length r place, State.waitPlace_of_not_listed,
    State.waitPlace_of_listed⟩, fun hst => ?_, fun hst hq => ?_, fun hm => ?_, fun hm hst => ?_⟩
  · refine exec_answered (c := .unload id) rfl rfl hs (congrArg atArrival (?_ : State.unloadCommand _ id = _))
    have free : ¬ (s.si.mode ≠ .config ∧ r.state ≠ .held) := fun ⟨mode, state⟩ => hm.elim mode state
    refine (found _).trans ((if_neg free).trans ?_)
    rw [State.removeRecord_eq]
    rfl
  · rw [← bytes]
    exact exec_answered (c := .readTerminal id) rfl rfl hs (congrArg atArrival (found _))
  · refine exec_answered (c := .release id) rfl rfl hs (congrArg atArrival (?_ : State.releaseCommand _ id = _))
    exact (found _).trans ((if_pos hst).trans (congrArg (·, Reply.ok) (replaced _)))
  · refine exec_answered (c := .release id) rfl rfl hs (congrArg atArrival (?_ : State.releaseCommand _ id = _))
    have notHeld : ¬ r.state = .held := by rw [hst]; decide
    exact (found _).trans ((if_neg notHeld).trans ((if_pos ⟨hst, hq⟩).trans (congrArg (·, Reply.ok) (replaced _))))
  · refine exec_answered (c := .cancelReentry id) rfl rfl hs (congrArg atArrival (?_ : State.cancelReentryCommand _ id = _))
    rw [(s.cellRemoved 0).cancelReentryCommand_of_run hm]
    exact (found _).trans (congrArg (·, Reply.ok) (replaced _))
  · refine exec_answered (c := .forceLoss id) rfl rfl hs (congrArg atArrival (?_ : State.forceLossCommand _ id = _))
    rw [(s.cellRemoved 0).forceLossCommand_of_run hm]
    exact (found _).trans ((if_neg hst).trans (congrArg (·, Reply.ok) (State.lose_cellRemoved hsound hr 0 .admin)))

section
variable {s : State} {id : Byte} {r : Record} (hid : id ≠ 0) (hr : s.record? id.toNat = some r)

include hid hr

theorem State.holdCommand_of_held (h : r.state = .held) : s.holdCommand id = (s, holdReply false) := by
  rw [State.holdCommand, s.onRecord_of_record hid hr]
  simp only [h]

/-- In RANGING the hold waits for the end of the exchange (R30). -/
theorem State.holdCommand_of_ranging (hs : s.recordsSound) (h : r.state = .ranging) :
    s.holdCommand id = (s.put id.toNat { r with holdReq := true }, holdReply true) := by
  rw [State.holdCommand, s.onRecord_of_record hid hr]
  simp only [h, State.update_eq_put hs hr]

theorem State.holdCommand_of_reentry (h : r.state = .lost ∨ r.state = .polling ∨ r.state = .admitWait) :
    s.holdCommand id = (s.holdReentry id.toNat r, holdReply false) := by
  rw [State.holdCommand, s.onRecord_of_record hid hr]
  rcases h with h | h | h <;> simp only [h]

theorem State.holdCommand_of_service
    (h : r.state = .confirming ∨ r.state = .inService ∨ r.state = .fading ∨ r.state = .shed) :
    s.holdCommand id = (s.holdService id.toNat r, holdReply false) := by
  rw [State.holdCommand, s.onRecord_of_record hid hr]
  rcases h with h | h | h | h <;> simp only [h]

end

/-- Settles O18, by the state of the record. -/
theorem holdByState : Obligations.HoldByState := by
  intro s tag id r hs hsound hid hr
  have held {t : State} (waits : Bool) (h : (s.cellRemoved 0).holdCommand id = (t.cellRemoved 0, holdReply waits)) :
      exec (.hold tag id) s = .next (t.answered tag 0x05 (holdReply waits)) :=
    exec_answered (c := .hold id) rfl rfl hs (congrArg atArrival h)
  have granted (t : State) := State.notify_cellRemoved t 0 .holdGranted (some id.toNat) [(r.state.code : Int)]
  refine ⟨fun h => held false (State.holdCommand_of_held hid hr h),
    fun h => held true (State.holdCommand_of_ranging (s := s.cellRemoved 0) hid hr hsound h), fun h => ?_, fun h => ?_⟩
  · have uncommitted : r.state.committed = false := by rcases h with h | h | h <;> rw [h] <;> rfl
    have left : s.accountsLeft id.toNat r = { s with ac := { s.ac with
        waitList := if r.state = TState.admitWait then s.ac.waitList.filter (· ≠ id.toNat) else s.ac.waitList } } := by
      rcases h with h | h | h <;> rw [State.accountsLeft, h] <;> rfl
    rw [← left]
    refine held false ((State.holdCommand_of_reentry (s := s.cellRemoved 0) hid hr h).trans (congrArg (·, _) ?_))
    rw [State.holdReentry_of_record (s := s.cellRemoved 0) hsound hr uncommitted]
    exact granted ((s.accountsLeft id.toNat r).put id.toNat (heldFromReentry r))
  · have left : s.accountsLeft id.toNat r = { s with ac := { s.ac with
        committedSum := if r.state = TState.shed then s.ac.committedSum else s.ac.committedSum - r.cost
        waitList := if r.state = TState.shed then s.ac.waitList.filter (· ≠ id.toNat) else s.ac.waitList } } := by
      rcases h with h | h | h | h <;> rw [State.accountsLeft, h] <;> rfl
    rw [← left]
    refine held false ((State.holdCommand_of_service (s := s.cellRemoved 0) hid hr h).trans (congrArg (·, _) ?_))
    rw [State.holdService_of_record (s := s.cellRemoved 0) hsound hr]
    exact granted ((s.accountsLeft id.toNat r).put id.toNat (heldFromService r))

end Sys2Proof.Machine
end

section
/-! Ranging (R31, R93 to R97): one measurement of a terminal in RANGING; and contention reports from listed stations (R22, R99 to
R103), which range a terminal anew. -/

namespace Sys2Proof.Machine

open Sys2Proof

/-! ## A record that is known -/

section
variable {s : State} {id : Nat} {r : Record} (hs : s.recordsSound) (h : s.record? id = some r)

theorem State.recordsSound_put (hs : s.recordsSound) (id : Nat) (r : Record) : (s.put id r).recordsSound :=
  (State.recordsSound_congr (s.ids_put id r)).2 hs

include h

theorem State.record?_put_self (q : Record) : (s.put id q).record? id = some q := by
  rw [State.record?_put, if_pos rfl, h]
  rfl

include hs

/-- A record put in place of itself changes nothing. -/
theorem State.put_self : s.put id r = s := by
  have same : assocUpdate s.tt.records id (fun _ => r) = s.tt.records := by
    rw [assocUpdate_congr hs.1 h (f := fun _ => r) (g := fun q => q) rfl]
    exact (List.map_congr_left fun e _ => by split <;> rfl).trans (List.map_id' _)
  simp only [State.put, same]

/-! ## One measurement (R94 to R97) -/

/-- An attempt while some are left: it is counted, with the new correction where there is one (R96, R97). -/
theorem State.attempt_of_left (ha : r.attempts < s.params.rangingMaxAttempts) (message : Option Message) :
    s.attempt id message = s.put id { r with attempts := r.attempts + 1, message := message.or r.message } := by
  rw [State.attempt, State.withRecord_of_record? h, if_pos ha, State.update_eq_put hs h]

omit hs in
/-- The last attempt: the exchange fails (R97). -/
theorem State.attempt_of_last (ha : s.params.rangingMaxAttempts ≤ r.attempts) (message : Option Message) :
    s.attempt id message = s.lose .rangingFailed id := by
  rw [State.attempt, State.withRecord_of_record? h, if_neg (Nat.not_lt.2 ha)]

/-- The exchange of a ranged terminal that waits for admission (R95). -/
theorem State.ranged_of_free (hq : r.holdReq = false) : s.ranged id =
    (s.put id { rangedRecord s.lm.profiles r with state := .admitWait }).joinWaitList id := by
  rw [State.ranged, State.withRecord_of_record? h, if_neg (by simp [hq]), State.update_eq_put hs h,
    State.update_eq_put (s.recordsSound_put hs id _) (State.record?_put_self h _), State.put_put]

/-- The exchange of a ranged terminal that is to be held (R31). -/
theorem State.ranged_of_holdReq (hq : r.holdReq = true) : s.ranged id =
    (s.put id { rangedRecord s.lm.profiles r with state := .held, holdReq := false, message := none }).notify .holdGranted
      (some id) [TState.ranging.code] := by
  rw [State.ranged, State.withRecord_of_record? h, if_pos hq, State.update_eq_put hs h, State.grantHold,
    State.update_eq_put (s.recordsSound_put hs id _) (State.record?_put_self h _), State.put_put]
  rfl

end

theorem inTolerance_iff (p : Params) (timing power : Int) : inTolerance p timing power = true ↔
    timing.natAbs ≤ p.timingTolerance ∧ power.natAbs ≤ p.powerTolerance := by
  simp only [inTolerance, Bool.and_eq_true, decide_eq_true_eq]

theorem State.measure_of_failed (s : State) (id : Nat) {m : Measurement} (hm : m.outcome ≠ .good) :
    s.measure id m = s.attempt id none := by
  unfold State.measure
  split
  · next hg => exact absurd hg hm
  · rfl

/-- A GOOD measurement updates the average and the last errors, and then ranges the terminal or counts an attempt (R94). -/
theorem State.measure_of_good {s : State} (hs : s.recordsSound) {id : Nat} {r : Record} (h : s.record? id = some r)
    {m : Measurement} (hm : m.outcome = .good) : s.measure id m =
      let heard := s.put id (measuredRecord s.params.snrShift m r)
      if inTolerance s.params (clampTiming m.timing) (clampPower m.power) then heard.ranged id
      else heard.attempt id (some (rangeAdjust s.params (clampTiming m.timing) (clampPower m.power))) := by
  simp only [State.measure, hm, State.update_eq_put hs h]
  rfl

/-- Settles O38: the outcome, the tolerance, and the attempts or the hold request. -/
theorem rangingMeasurement : Obligations.RangingMeasurement := by
  intro s id r m hs h t p avg heard near step
  have failed (hm : m.outcome ≠ .good) := s.measure_of_failed id hm
  have good (hm : m.outcome = .good) := State.measure_of_good hs h hm
  have sound : (s.put id heard).recordsSound := s.recordsSound_put hs id heard
  have known : (s.put id heard).record? id = some heard := State.record?_put_self h heard
  have far (hm : m.outcome = .good) (hn : ¬ near) : s.measure id m =
      (s.put id heard).attempt id (some (rangeAdjust s.params t p)) :=
    (good hm).trans (if_neg (mt (inTolerance_iff ..).1 hn))
  have ranged (hm : m.outcome = .good) (hn : near) : s.measure id m = (s.put id heard).ranged id :=
    (good hm).trans (if_pos ((inTolerance_iff ..).2 hn))
  refine ⟨fun hm ha => ?_, fun hm ha => ?_, fun hm hn ha => ?_, fun hm hn ha => ?_, fun hm hn => ?_⟩
  · exact (failed hm).trans (State.attempt_of_left hs h ha none)
  · exact (failed hm).trans (State.attempt_of_last h ha none)
  · rw [far hm hn, State.attempt_of_left sound known ha, State.put_put]
    rfl
  · rw [far hm hn, State.attempt_of_last known ha]
  · intro profile
    refine ⟨fun hq => ?_, fun hq => ?_⟩
    · rw [ranged hm hn, State.ranged_of_free sound known hq, State.put_put]
      rfl
    · rw [ranged hm hn, State.ranged_of_holdReq sound known hq, State.put_put]
      rfl

/-! ## Contention from a listed station (R99 to R103) -/

/-- A GOOD report of a listed station reaches RU in RUN, on either row of the table (R4, R22; log 17). -/
theorem exec_contention_of_listed {s : State} (hs : s.usEngine) {b : Burst} {addr : Address} {id : Nat}
    (hg : b.outcome = .good) (ha : b.address = some addr) (hid : s.stationId addr = some id) :
    exec (.contentionReportListed b) s = .next (s.contentionListed id (measurementOf b)) ∧
      exec (.contentionReportUnlisted b) s = .next (s.contentionListed id (measurementOf b)) := by
  have row : exec (.contentionReportUnlisted b) s = .next (s.contentionListed id (measurementOf b)) := by
    rw [exec_contentionReportUnlisted hs fun _ => by simp [ha]]
    simp only [State.contention, hg, ha, hid]
  exact ⟨row, row⟩

section
variable {s : State} {id : Nat} {r : Record} (hs : s.recordsSound) (h : s.record? id = some r) (m : Measurement)

include h

/-- The report of a HELD terminal is consumed (R103). -/
theorem State.contentionListed_of_held (hst : r.state = .held) : s.contentionListed id m = s := by
  rw [State.contentionListed, State.withRecord_of_record? h]
  simp only [hst]

include hs

/-- A report that moves a terminal to RANGING is its first measurement (R93, R99). -/
theorem State.contentionListed_of_away (hst : r.state = .lost ∨ r.state = .polling) : s.contentionListed id m =
    (s.put id { r with holdOff := 0, outstanding := none, state := .ranging, attempts := 0 }).measure id m := by
  have first (q : Record) : (s.put id q).firstMeasurement id m = (s.put id { q with attempts := 0 }).measure id m := by
    rw [State.firstMeasurement, State.update_eq_put (s.recordsSound_put hs id q) (State.record?_put_self h q), State.put_put]
  rw [State.contentionListed, State.withRecord_of_record? h]
  rcases hst with hst | hst <;> simp only [hst, State.update_eq_put hs h, first]

/-- A report in RANGING is a further measurement (R100). -/
theorem State.contentionListed_of_ranging (hst : r.state = .ranging) :
    s.contentionListed id m = (s.put id { r with outstanding := none }).measure id m := by
  rw [State.contentionListed, State.withRecord_of_record? h]
  simp only [hst, State.update_eq_put hs h]

/-- A loss leaves no attempt counted, so the report that follows it is the first measurement as it stands (R59, R93, R101). -/
theorem State.firstMeasurement_lose (reason : LossReason) :
    (s.lose reason id).firstMeasurement id m = (s.lose reason id).measure id m := by
  have sound : (s.lose reason id).recordsSound := (State.recordsSound_congr (s.engineOnly_lose reason id).ids).2 hs
  have known : (s.lose reason id).record? id = some (lostRecord s.params.holdOffBase s.si.markerCount reason r) := by
    rw [State.record?_lose, h]
    rfl
  rw [State.firstMeasurement, State.update_eq_put sound known]
  exact congrArg (State.measure · id m) (State.put_self sound known)

/-- A report of a terminal that was ranged already shows that its station has started anew (R101, R102). -/
theorem State.contentionListed_of_rebooted (hst : r.state = .admitWait ∨ r.state = .confirming ∨ r.state = .inService ∨
    r.state = .fading ∨ r.state = .shed) : s.contentionListed id m = (s.lose .rebooted id).measure id m := by
  rw [← State.firstMeasurement_lose hs h m .rebooted, State.contentionListed, State.withRecord_of_record? h]
  rcases hst with hst | hst | hst | hst | hst <;> simp only [hst]

end

/-- Settles O41: the Station Map, the measurement, and the report by the state of the terminal. -/
theorem contentionFromListedStation : Obligations.ContentionFromListedStation := by
  refine ⟨fun s addr id hs => State.stationId_eq_some hs addr id, fun _ => rfl, fun s b addr id r hs hg ha hid h hst => ?_,
    fun s b addr id r hs hsound hg ha hid h => ?_⟩
  · obtain ⟨listed, unlisted⟩ := exec_contention_of_listed hs hg ha hid
    rw [State.contentionListed_of_held h _ hst] at listed unlisted
    exact ⟨listed, unlisted⟩
  · have listed := (exec_contention_of_listed hs hg ha hid).1
    refine ⟨fun hst => ?_, fun hst => ?_, fun hst => ?_⟩
    · rw [listed, State.contentionListed_of_away hsound h _ hst]
    · rw [listed, State.contentionListed_of_ranging hsound h _ hst]
    · rw [listed, State.contentionListed_of_rebooted hsound h _ hst]

end Sys2Proof.Machine
end

section
/-! The settings (R47, R48, R107 to R114, R178): the tables in force and in flight, AC's figures and the notice mask within their
ranges and orders, the operations that write them, and the step. -/

namespace Sys2Proof.Machine

open Sys2Proof

/-! ## The checks of a loaded table (R48, R109) -/

/-- The ranges of a Profile Table's entries (R48 check 1). -/
abbrev entriesInRange (t : List ProfileEntry) : Prop :=
  ∀ e ∈ t, -40 ≤ e.threshold ∧ e.threshold ≤ 160 ∧ 4 ≤ e.capacity ∧ e.capacity ≤ 240 ∧ e.overhead ≤ 3

/-- The order of a Profile Table's enabled entries (R48 check 3). -/
abbrev enabledOrdered (t : List ProfileEntry) : Prop :=
  (t.filter (·.enabled)).Pairwise fun a b => a.threshold < b.threshold ∧ a.capacity ≤ b.capacity

theorem all_profileInRange (t : List ProfileEntry) : t.all profileInRange = true ↔ entriesInRange t := by
  simp only [entriesInRange, List.all_eq_true, profileInRange, Bool.and_eq_true, decide_eq_true_eq, and_assoc]

/-- The check of neighbours gives the order of every pair. -/
theorem ascending_iff (t : List ProfileEntry) :
    ascending t = true ↔ t.Pairwise fun a b => a.threshold < b.threshold ∧ a.capacity ≤ b.capacity := by
  induction t with
  | nil => simp [ascending]
  | cons a t ih =>
    cases t with
    | nil => simp [ascending]
    | cons b t =>
      simp only [ascending, Bool.and_eq_true, decide_eq_true_eq, ih]
      rw [List.pairwise_cons (l := b :: t)]
      refine ⟨fun ⟨next, rest⟩ => ⟨fun c hc => ?_, rest⟩, fun ⟨first, rest⟩ => ⟨first b List.mem_cons_self, rest⟩⟩
      rcases List.mem_cons.1 hc with rfl | hc
      · exact next
      · obtain ⟨threshold, capacity⟩ := (List.pairwise_cons.1 rest).1 c hc
        exact ⟨next.1.trans threshold, next.2.trans capacity⟩

theorem nondecreasing_iff (l : List Nat) : nondecreasing l = true ↔ l.Pairwise (· ≤ ·) := by
  induction l with
  | nil => simp [nondecreasing]
  | cons a l ih =>
    cases l with
    | nil => simp [nondecreasing]
    | cons b l =>
      simp only [nondecreasing, Bool.and_eq_true, decide_eq_true_eq, ih]
      rw [List.pairwise_cons (l := b :: l)]
      refine ⟨fun ⟨next, rest⟩ => ⟨fun c hc => ?_, rest⟩, fun ⟨first, rest⟩ => ⟨first b List.mem_cons_self, rest⟩⟩
      rcases List.mem_cons.1 hc with rfl | hc
      · exact next
      · exact next.trans ((List.pairwise_cons.1 rest).1 c hc)

/-- The checks of R48 in their order. -/
theorem profileFailure_eq (t : List ProfileEntry) : profileFailure t =
    if ¬ entriesInRange t then some .badValue
    else if (profileAt t 0).enabled = false ∨ ¬ enabledOrdered t then some .badProfileOrder else none := by
  simp only [profileFailure, ← Bool.not_eq_true (List.all _ _), ← Bool.not_eq_true (ascending _), all_profileInRange,
    ascending_iff]
  split_ifs <;> simp_all

/-- A table of eight entries that passes its checks is sound (R47, R48). -/
theorem tableSound_of_profileFailure {t : List ProfileEntry} (hl : t.length = 8) (h : profileFailure t = none) :
    tableSound t := by
  rw [profileFailure_eq] at h
  split_ifs at h with range order
  obtain ⟨first, ordered⟩ := not_or.1 order
  exact ⟨hl, by simpa using first, range, not_not.1 ordered⟩

/-- A Level Table of seven thresholds that passes its checks is sound (R108, R109). -/
theorem levelTableSound_of_ok {ths : List Nat} {levelHold : Nat} (hl : ths.length = 7)
    (h : levelTableOk ths levelHold = true) : levelTableSound ths levelHold := by
  simp only [levelTableOk, Bool.and_eq_true, List.all_eq_true, decide_eq_true_eq, nondecreasing_iff] at h
  obtain ⟨⟨⟨range, low⟩, high⟩, order⟩ := h
  exact ⟨hl, range, order, low, high⟩

/-! ## AC's figures (R107 to R114) -/

/-- AC's part of the settings: its tables, levels, storm and banks, with B_eff, within their ranges. -/
structure Ac.SettingsSound (ac : Ac) : Prop where
  levelTable : levelTableSound ac.thresholds ac.levelHold
  banks : banksSound ac.banks
  staged : ∀ b ∈ ac.staged, banksSound b
  storm : ∀ st ∈ ac.storm, 1 ≤ st.level ∧ st.level ≤ 7 ∧ 1 ≤ st.remaining ∧ st.remaining ≤ 256
  rawLevel : ac.rawLevel ≤ 7
  heldLevel : ac.heldLevel ≤ 7
  effLevel : ac.effLevel ≤ 7
  holdCounter : ac.holdCounter ≤ 254
  bEff : ac.bEff ≤ 4095

/-- The law reads AC's figures alone. -/
theorem Ac.SettingsSound.congr {a b : Ac} (h : a.SettingsSound) (hf : b.figures = a.figures) : b.SettingsSound := by
  have figures : b.figures.SettingsSound := by
    rw [hf]
    exact ⟨h.levelTable, h.banks, h.staged, h.storm, h.rawLevel, h.heldLevel, h.effLevel, h.holdCounter, h.bEff⟩
  exact ⟨figures.levelTable, figures.banks, figures.staged, figures.storm, figures.rawLevel, figures.heldLevel,
    figures.effLevel, figures.holdCounter, figures.bEff⟩

theorem rawLevelOf_le {thresholds : List Nat} {levelHold : Nat} (h : levelTableSound thresholds levelHold) (pm : Nat) :
    rawLevelOf thresholds pm ≤ 7 := (List.length_filter_le _ _).trans h.1.le

/-- A held level goes up to the raw level, down by one, or stays; its counter restarts or counts to the level hold (R110). -/
theorem heldAfterMarker_bounds {raw held counter levelHold : Nat} (hr : raw ≤ 7) (hh : held ≤ 7) (hl : levelHold ≤ 255) :
    (heldAfterMarker raw held counter levelHold).1 ≤ 7 ∧ (heldAfterMarker raw held counter levelHold).2 ≤ 254 := by
  simp only [heldAfterMarker]
  split_ifs <;> dsimp only <;> omega

theorem heldAfterEntry_bounds {raw held counter : Nat} (hr : raw ≤ 7) (hh : held ≤ 7) (hc : counter ≤ 254) :
    (heldAfterEntry raw held counter).1 ≤ 7 ∧ (heldAfterEntry raw held counter).2 ≤ 254 := by
  simp only [heldAfterEntry]
  split_ifs <;> dsimp only <;> omega

theorem effectiveLevel_le {held : Nat} {storm : Option Storm} (hh : held ≤ 7) (hs : ∀ st ∈ storm, st.level ≤ 7) :
    effectiveLevel held storm ≤ 7 := by
  cases storm with
  | none => exact hh
  | some st => exact max_le hh (hs st rfl)

theorem effectiveBudget_le {banks : List Nat} (h : banksSound banks) (p : Params) (level : Nat) :
    effectiveBudget banks p level ≤ 4095 := by
  have bank : banks.getD level 0 ≤ 4095 := by
    rw [List.getD_eq_getElem?_getD]
    rcases hb : banks[level]? with _ | b
    · exact Nat.zero_le _
    · exact h.2 b (List.mem_of_getElem? hb)
  exact (Nat.sub_le _ _).trans bank

/-! ## What leaves the settings alone -/

/-- `t` has the Profile Table, the command in flight, AC's figures and the notice mask of `s`. -/
structure State.SameSettings (s t : State) : Prop where
  lm : t.lm = s.lm
  inFlight : t.mu.inFlight = s.mu.inFlight
  figures : t.ac.figures = s.ac.figures
  mask : t.mu.mask = s.mu.mask

namespace EngineClosed

variable {R : State → State → Prop} (h : EngineClosed R)

include h

/-! ### Commands that change one record -/

theorem onRecord {s : State} {id : Byte} {f : Nat → Record → State × Reply} (hf : ∀ r, R s (f id.toNat r).1) :
    R s (s.onRecord id f).1 := by
  simp only [State.onRecord]
  split
  · exact h.refl s
  · split
    · exact h.refl s
    · exact hf _

theorem holdReentry (s : State) (id : Nat) (r : Record) : R s (s.holdReentry id r) := by
  simp only [State.holdReentry]
  split
  · exact h.trans (h.setWaitList s _) (h.trans (h.update _ id _) (h.notify _ _ _ _))
  · exact h.trans (h.update s id _) (h.notify _ _ _ _)

theorem holdService (s : State) (id : Nat) (r : Record) : R s (s.holdService id r) := by
  simp only [State.holdService]
  have sum : R s (if r.state.committed = true then s.setSum (s.ac.committedSum - r.cost) else s) := by
    split
    · exact h.setSum s _
    · exact h.refl s
  generalize (if r.state.committed = true then s.setSum (s.ac.committedSum - r.cost) else s) = t at sum ⊢
  have list : R t (if r.state.waiting = true then t.leaveWaitList id else t) := by
    split
    · exact h.setWaitList t _
    · exact h.refl t
  exact h.trans (h.trans sum list) (h.trans (h.update _ id _) (h.notify _ _ _ _))

theorem holdCommand (s : State) (id : Byte) : R s (s.holdCommand id).1 := h.onRecord fun r => by
  cases hr : r.state with
  | held => exact h.refl s
  | ranging => exact h.update s _ _
  | lost => exact h.holdReentry s _ r
  | polling => exact h.holdReentry s _ r
  | admitWait => exact h.holdReentry s _ r
  | confirming => exact h.holdService s _ r
  | inService => exact h.holdService s _ r
  | fading => exact h.holdService s _ r
  | shed => exact h.holdService s _ r

theorem releaseCommand (s : State) (id : Byte) : R s (s.releaseCommand id).1 := h.onRecord fun r => by
  split_ifs
  · exact h.update s _ _
  · exact h.update s _ _
  · exact h.refl s

theorem forceLossCommand (s : State) (id : Byte) : R s (s.forceLossCommand id).1 := by
  simp only [State.forceLossCommand]
  split
  · exact h.refl s
  · refine h.onRecord fun r => ?_
    split
    · exact h.refl s
    · exact h.marker.lose s _ _

theorem cancelReentryCommand (s : State) (id : Byte) : R s (s.cancelReentryCommand id).1 := by
  simp only [State.cancelReentryCommand]
  split
  · exact h.refl s
  · exact h.onRecord fun r => h.update s _ _

end EngineClosed

namespace State.SameSettings

variable {s t : State}

theorem of_eq (hlm : t.lm = s.lm) (hac : t.ac.figures = s.ac.figures) (hmu : t.mu = s.mu) : s.SameSettings t :=
  ⟨hlm, by rw [hmu], hac, by rw [hmu]⟩

theorem notify (s : State) (kind : NoticeKind) (id : Option Nat) (values : List Int) :
    s.SameSettings (s.notify kind id values) :=
  ⟨s.notify_lm .., s.notify_inFlight .., by rw [s.notify_ac], s.notify_mask ..⟩

theorem closed : EngineClosed State.SameSettings where
  refl _ := of_eq rfl rfl rfl
  trans h₁ h₂ := ⟨h₂.lm.trans h₁.lm, h₂.inFlight.trans h₁.inFlight, h₂.figures.trans h₁.figures, h₂.mask.trans h₁.mask⟩
  notify := notify
  setSum _ _ := of_eq rfl rfl rfl
  setWaitList _ _ := of_eq rfl rfl rfl
  noteShed _ _ := of_eq rfl rfl rfl
  noteLost _ _ := of_eq rfl rfl rfl
  update _ _ _ := of_eq rfl rfl rfl
  updateAll _ _ := of_eq rfl rfl rfl

theorem trans {u : State} (h₁ : s.SameSettings t) (h₂ : t.SameSettings u) : s.SameSettings u := closed.trans h₁ h₂

theorem reportRegion (s : State) (es : List MapEntry) : s.SameSettings (s.reportRegion es) := by
  simp only [State.reportRegion]
  split
  · exact closed.refl s
  · exact (notify s _ _ _).trans (of_eq rfl rfl rfl)

theorem enqueueUnlisted (s : State) (addr : Address) (frame : FrameNumber) (m : Measurement) :
    s.SameSettings (s.enqueueUnlisted addr frame m) := by
  simp only [State.enqueueUnlisted]
  split_ifs
  · exact of_eq rfl rfl rfl
  · exact trans (t := s.setUnlisted (s.uq.queue ++ [newEntry addr frame m])) (of_eq rfl rfl rfl) (notify _ _ _ _)
  · exact closed.refl s
  · exact trans (t := s.setOverrun true) (of_eq rfl rfl rfl) (notify _ _ _ _)

theorem contention (s : State) (b : Burst) : s.SameSettings (s.contention b) := by
  simp only [State.contention]
  split
  · split
    · exact closed.contentionListed s _ _
    · simp only [State.screen]
      split
      · exact enqueueUnlisted s _ _ _
      · exact closed.refl s
  · exact closed.refl s

theorem applyEntry (s : State) (e : ProvEntry) : s.SameSettings (s.applyEntry e) := by
  rcases hr : s.record? e.id.toNat with _ | r
  · rw [State.applyEntry_of_vacant hr]; exact of_eq rfl rfl rfl
  · rw [State.applyEntry_of_record hr]; exact of_eq rfl rfl rfl

theorem unloadCommand (s : State) (id : Byte) : s.SameSettings (s.unloadCommand id).1 := closed.onRecord fun r => by
  split
  · exact closed.refl s
  · rw [State.removeRecord_eq]; exact of_eq rfl rfl rfl

end State.SameSettings

/-! ## The law of the settings -/

/-- The settings of LM, AC and MU, by block. -/
structure State.SettingsLaw (s : State) : Prop where
  profiles : tableSound s.lm.profiles
  table : ∀ t ∈ s.tableInFlight, tableSound t
  ac : s.ac.SettingsSound
  mask : s.mu.mask.length = 18

theorem State.settingsLaw_iff (s : State) : s.SettingsLaw ↔ s.settingsSound := by
  constructor
  · rintro ⟨profiles, table, ac, mask⟩
    exact ⟨profiles, table, ac.levelTable, ac.banks, ac.staged, ac.storm, ac.rawLevel, ac.heldLevel, ac.effLevel,
      ac.holdCounter, ac.bEff, mask⟩
  · rintro ⟨profiles, table, levelTable, banks, staged, storm, raw, held, eff, counter, bEff, mask⟩
    exact ⟨profiles, table, ⟨levelTable, banks, staged, storm, raw, held, eff, counter, bEff⟩, mask⟩

namespace State.SettingsLaw

variable {s t : State}

theorem same (h : s.SettingsLaw) (hst : s.SameSettings t) : t.SettingsLaw where
  profiles := by rw [hst.lm]; exact h.profiles
  table := by simpa only [State.tableInFlight, hst.inFlight] using h.table
  ac := h.ac.congr hst.figures
  mask := by rw [hst.mask]; exact h.mask

theorem congr (h : s.SettingsLaw) (hlm : t.lm = s.lm) (hac : t.ac = s.ac) (hmu : t.mu = s.mu) : t.SettingsLaw :=
  h.same (.of_eq hlm (by rw [hac]) hmu)

/-- AC's figures replaced by others within their ranges. -/
theorem withAc (h : s.SettingsLaw) {ac : Ac} (hac : ac.SettingsSound) : State.SettingsLaw { s with ac := ac } :=
  { h with ac := hac }

theorem notify (h : s.SettingsLaw) (kind : NoticeKind) (id : Option Nat) (values : List Int) :
    (s.notify kind id values).SettingsLaw := h.same (.notify s kind id values)

/-! ### AC's operations (R107 to R116) -/

theorem applyStaged (h : s.SettingsLaw) : s.applyStaged.SettingsLaw := by
  have banks : banksSound (s.ac.staged.getD s.ac.banks) := by
    rcases hb : s.ac.staged with _ | banks
    · exact h.ac.banks
    · exact h.ac.staged banks hb
  rw [State.applyStaged_eq]
  exact h.withAc { h.ac with banks := banks, staged := fun _ hn => by cases hn }

theorem setStorm (h : s.SettingsLaw) {storm : Option Storm}
    (hb : ∀ st ∈ storm, 1 ≤ st.level ∧ st.level ≤ 7 ∧ 1 ≤ st.remaining ∧ st.remaining ≤ 256) :
    (s.setStorm storm).SettingsLaw := h.withAc { h.ac with storm := hb }

theorem countStorm (h : s.SettingsLaw) : s.countStorm.SettingsLaw := by
  simp only [State.countStorm]
  split
  · exact h
  · next st hst =>
    obtain ⟨low, high, _, most⟩ := h.ac.storm st hst
    split_ifs with ends
    · exact (h.setStorm fun _ hn => by cases hn).notify _ _ _
    · refine h.setStorm fun u hu => ?_
      cases hu
      exact ⟨low, high, by dsimp only; omega, by dsimp only; omega⟩

theorem computeRaw (h : s.SettingsLaw) : s.computeRaw.SettingsLaw :=
  h.withAc { h.ac with rawLevel := rawLevelOf_le h.ac.levelTable _ }

theorem setHeld (h : s.SettingsLaw) {held : Nat × Nat} (hb : held.1 ≤ 7 ∧ held.2 ≤ 254) : (s.setHeld held).SettingsLaw :=
  h.withAc { h.ac with heldLevel := hb.1, holdCounter := hb.2 }

theorem holdLevel (h : s.SettingsLaw) : s.holdLevel.SettingsLaw := by
  obtain ⟨_, _, _, _, hold⟩ := h.ac.levelTable
  exact h.setHeld (heldAfterMarker_bounds h.ac.rawLevel h.ac.heldLevel hold)

theorem computeBudget (h : s.SettingsLaw) : s.computeBudget.SettingsLaw :=
  h.withAc { h.ac with
    effLevel := effectiveLevel_le h.ac.heldLevel fun st hst => (h.ac.storm st hst).2.1
    bEff := effectiveBudget_le h.ac.banks s.params s.levelNow }

theorem announceBudget (h : s.SettingsLaw) : s.announceBudget.SettingsLaw := by
  simp only [State.announceBudget]
  split
  · exact h.computeBudget
  · exact h.computeBudget.notify _ _ _

theorem budgetStage (h : s.SettingsLaw) : s.budgetStage.SettingsLaw :=
  h.applyStaged.countStorm.computeRaw.holdLevel.announceBudget

theorem entryLevel (h : s.SettingsLaw) : s.entryLevel.SettingsLaw := by
  have raw := h.applyStaged.computeRaw
  exact (raw.setHeld (heldAfterEntry_bounds raw.ac.rawLevel raw.ac.heldLevel raw.ac.holdCounter)).announceBudget

theorem resetBudget (h : s.SettingsLaw) : s.resetBudget.SettingsLaw := by
  have staged := h.applyStaged.ac
  have cleared : Ac.SettingsSound { s.applyStaged.ac with rawLevel := 0, heldLevel := 0, holdCounter := 0, storm := none } :=
    { staged with
      rawLevel := Nat.zero_le _, heldLevel := Nat.zero_le _, holdCounter := Nat.zero_le _, storm := fun _ hn => by cases hn }
  exact (h.applyStaged.withAc cleared).computeBudget

/-! ### The marker (R64, R129) -/

theorem runStage (h : s.SettingsLaw) (rank : Nat → Nat) (stage : MarkerStage) : (runStage rank s stage).SettingsLaw := by
  by_cases hb : stage = .budget
  · rw [hb]; exact h.budgetStage
  · exact h.same (SameSettings.closed.marker.runStage rank s hb)

theorem markerInRun (h : s.SettingsLaw) : s.markerInRun.SettingsLaw := by
  have counted : s.countMarker.SettingsLaw := h.congr rfl rfl rfl
  have stages := foldl_kept (P := State.SettingsLaw)
    (fun _ stage hu => hu.runStage (Config.cancelRank s.raceTick) stage)
    (interleave (Config.markerPicks s.raceTick) otStages acStages) counted
  exact same stages (.of_eq rfl rfl rfl)

theorem takeMarker (h : s.SettingsLaw) (frame : FrameNumber) : (s.takeMarker frame).SettingsLaw := by
  simp only [State.takeMarker]
  split
  · exact h.congr rfl rfl rfl
  · exact markerInRun (h.congr (t := s.recordFrame frame) rfl rfl rfl)
  · exact markerInRun (notify (h.congr (t := (s.setMode .run).recordFrame frame) rfl rfl rfl) _ _ _)

/-! ### The command in flight -/

theorem setInFlight (h : s.SettingsLaw) {c : Option InFlight} (hc : ∀ tag t k, c = some (.loadProfiles tag t k) → tableSound t) :
    (s.setInFlight c).SettingsLaw :=
  { h with
    table := fun t ht => by
      simp only [State.tableInFlight, State.setInFlight_mu, Option.mem_def] at ht
      split at ht
      · cases ht; exact hc _ _ _ rfl
      · cases ht }

theorem complete (h : s.SettingsLaw) (tag code : Byte) (r : Reply) : (s.complete tag code r).SettingsLaw :=
  congr (h.setInFlight (c := none) fun _ _ _ hn => by cases hn) rfl rfl rfl

theorem tableSound_inFlight (h : s.SettingsLaw) {tag : Byte} {t : List ProfileEntry} {k : Nat}
    (hf : s.mu.inFlight = some (.loadProfiles tag t k)) : tableSound t :=
  h.table t (by simp only [State.tableInFlight, hf, Option.mem_def])

theorem installProfiles (h : s.SettingsLaw) {t : List ProfileEntry} (ht : tableSound t) (k : Nat) :
    (s.installProfiles t k).SettingsLaw := { h with profiles := ht }

theorem reclampAll (h : s.SettingsLaw) : s.reclampAll.SettingsLaw := by
  unfold State.reclampAll
  split
  · next hf => exact (h.installProfiles (h.tableSound_inFlight hf) _).complete _ _ _
  · exact h

theorem abortInFlight (h : s.SettingsLaw) : s.abortInFlight.SettingsLaw := by
  unfold State.abortInFlight
  split
  · exact h.complete _ _ _
  · next hf => exact (h.installProfiles (h.tableSound_inFlight hf) _).complete _ _ _
  · exact h.complete _ _ _
  · exact h

theorem nextEntry (h : s.SettingsLaw) : s.nextEntry.SettingsLaw := by
  unfold State.nextEntry
  split
  · split
    · exact h
    · split
      · exact h.complete _ _ _
      · dsimp only
        split
        · exact (h.same (.applyEntry s _)).complete _ _ _
        · exact (h.same (.applyEntry s _)).setInFlight fun _ _ _ hc => by cases hc
  · exact h

theorem entryStage (h : s.SettingsLaw) (k : Nat) : (s.entryStage k).SettingsLaw := by
  unfold State.entryStage
  split
  · exact h.same (SameSettings.closed.updateAll s _)
  · exact h.same (.of_eq rfl rfl rfl)
  · exact h.entryLevel
  · exact h.same (SameSettings.closed.marker.shedCheck s false)
  · exact h

theorem enterRun (h : s.SettingsLaw) (tag : Byte) : (s.enterRun tag).SettingsLaw :=
  complete (s := { s with si := { s.si with mode := .run, watchdog := some s.params.watchdogTime } }) (h.congr rfl rfl rfl) _ _ _

theorem nextEntryStage (h : s.SettingsLaw) (last : Nat) : (State.nextEntryStage last s).SettingsLaw := by
  unfold State.nextEntryStage
  split
  · split_ifs
    · exact h
    · exact h.enterRun _
    · exact (h.entryStage _).setInFlight fun _ _ _ hc => by cases hc
  · exact h

theorem resetStep (h : s.SettingsLaw) (step : Nat) : (s.resetStep step).SettingsLaw := by
  simp only [State.resetStep]
  split
  · simp only [State.resetSi]
    split <;> exact h.congr rfl rfl rfl
  · exact h.same (SameSettings.closed.updateAll s _)
  · exact resetBudget (h.same (.of_eq rfl rfl rfl))
  · exact h.congr rfl rfl rfl
  · exact h.congr rfl rfl rfl
  · exact h.same ⟨rfl, rfl, rfl, rfl⟩
  · exact h

theorem nextResetStep (h : s.SettingsLaw) : s.nextResetStep.SettingsLaw := by
  unfold State.nextResetStep
  split
  · split
    · exact h.complete _ _ _
    · exact (h.resetStep _).setInFlight fun _ _ _ hc => by cases hc
  · exact h

/-! ### The commands of a cell -/

theorem setModeCommand (h : s.SettingsLaw) (tag requested : Byte) : (s.setModeCommand tag requested).1.SettingsLaw := by
  unfold State.setModeCommand
  split
  case h_4 => exact h.setInFlight fun _ _ _ hc => by cases hc
  all_goals exact h.congr rfl rfl rfl

theorem loadProfilesCommand (h : s.SettingsLaw) (tag : Byte) {w : List ProfileWire} (hl : w.length = 8) :
    (s.loadProfilesCommand tag w).1.SettingsLaw := by
  simp only [State.loadProfilesCommand]
  split
  · exact h
  · split
    · exact h
    · next ht =>
      refine h.setInFlight fun _ _ _ hc => ?_
      cases hc
      exact tableSound_of_profileFailure (by rw [List.length_map, hl]) ht

theorem loadBudgetCommand (h : s.SettingsLaw) {banks : List Half} (hl : banks.length = 8) :
    (s.loadBudgetCommand banks).1.SettingsLaw := by
  simp only [State.loadBudgetCommand]
  split
  · next hb =>
    simp only [List.all_eq_true, decide_eq_true_eq] at hb
    refine h.withAc { h.ac with staged := fun b hm => ?_ }
    cases hm
    exact ⟨by rw [List.length_map, hl], List.forall_mem_map.2 hb⟩
  · exact h

theorem loadLevelTableCommand (h : s.SettingsLaw) {ths : List Half} (hl : ths.length = 7) (levelHold : Byte) :
    (s.loadLevelTableCommand ths levelHold).1.SettingsLaw := by
  simp only [State.loadLevelTableCommand]
  split_ifs with _ ok
  · exact h
  · exact h.withAc { h.ac with levelTable := levelTableSound_of_ok (by rw [List.length_map, hl]) ok }
  · exact h

theorem stormCommand (h : s.SettingsLaw) (level : Byte) : (s.stormCommand level).1.SettingsLaw := by
  simp only [State.stormCommand]
  split
  · exact h.setStorm fun _ hn => by cases hn
  · next hne =>
    have positive : level.toNat ≠ 0 := fun hz => hne (BitVec.eq_of_toNat_eq hz)
    refine h.setStorm fun st hst => ?_
    cases hst
    dsimp only
    omega

theorem setNoticeMaskCommand (h : s.SettingsLaw) {enables : List Byte} (hl : enables.length = 18) :
    (s.setNoticeMaskCommand enables).1.SettingsLaw := by
  simp only [State.setNoticeMaskCommand]
  split
  · exact { h with mask := by simpa using hl }
  · exact h

theorem sectorResetCommand (h : s.SettingsLaw) (tag : Byte) (through : Nat) :
    (s.sectorResetCommand tag through).1.SettingsLaw := by
  unfold State.sectorResetCommand
  split
  · exact h
  · exact repeatOp_kept (fun _ hu => nextResetStep hu) _ (h.abortInFlight.setInFlight fun _ _ _ hc => by cases hc)

/-- A command whose lists have their lengths, by its own rules. -/
theorem perform (h : s.SettingsLaw) (tag : Byte) {c : Command} (hl : c.lengthOk = true) :
    (s.perform tag c).1.SettingsLaw := by
  cases c with
  | setMode v => exact h.setModeCommand tag v
  | loadTerminals es => exact h.setInFlight fun _ _ _ hc => by cases hc
  | unload id => exact h.same (.unloadCommand s id)
  | readTerminal id => exact h.same (SameSettings.closed.onRecord fun _ => SameSettings.closed.refl s)
  | hold id => exact h.same (SameSettings.closed.holdCommand s id)
  | release id => exact h.same (SameSettings.closed.releaseCommand s id)
  | forceLoss id => exact h.same (SameSettings.closed.forceLossCommand s id)
  | cancelReentry id => exact h.same (SameSettings.closed.cancelReentryCommand s id)
  | loadProfiles t => exact h.loadProfilesCommand tag (by simpa [Command.lengthOk] using hl)
  | loadBudget b => exact h.loadBudgetCommand (by simpa [Command.lengthOk] using hl)
  | loadLevelTable ths hold => exact h.loadLevelTableCommand (by simpa [Command.lengthOk] using hl) hold
  | loadFilters a b r =>
    simp only [State.perform, State.loadFiltersCommand, atArrival]
    split
    · exact h
    · split
      · exact h.congr rfl rfl rfl
      · exact h
  | loadSectorParameters v =>
    simp only [State.perform, State.loadSectorParametersCommand, atArrival]
    split
    · exact h
    · split <;> exact h.congr rfl rfl rfl
  | storm l => exact h.stormCommand l
  | unlistedRead => simp only [State.perform, State.unlistedReadCommand, atArrival]; split <;> exact h
  | unlistedRelease =>
    simp only [State.perform, State.unlistedReleaseCommand, atArrival]
    split <;> exact h.congr rfl rfl rfl
  | unlistedClearOverrun => exact h.congr rfl rfl rfl
  | readSector a => simp only [State.perform, State.readSectorCommand, atArrival]; split <;> exact h.congr rfl rfl rfl
  | setNoticeMask m => exact h.setNoticeMaskCommand (by simpa [Command.lengthOk] using hl)
  | sectorReset through => exact h.sectorResetCommand tag through

theorem carryOut (h : s.SettingsLaw) (tag : Byte) {c : Command} (hl : c.lengthOk = true) :
    (s.carryOut tag c).SettingsLaw := by
  have performed := h.perform tag hl
  simp only [State.carryOut]
  split
  · next hu => rw [hu] at performed; exact performed.congr rfl rfl rfl
  · next hu => rw [hu] at performed; exact performed

theorem takeCommand (h : s.SettingsLaw) (tag : Byte) (c : Command) : (s.takeCommand tag c).SettingsLaw := by
  simp only [State.takeCommand]
  split_ifs with _ hl
  · exact h.congr rfl rfl rfl
  · exact h.congr rfl rfl rfl
  · exact h.carryOut tag (by simpa using hl)

theorem takeCell (h : s.SettingsLaw) (payload : List Byte) : (s.takeCell payload).SettingsLaw := by
  simp only [State.takeCell]
  split
  · split
    · exact h.congr rfl rfl rfl
    · split
      · exact h.congr rfl rfl rfl
      · exact h.congr rfl rfl rfl
      · next hc => exact h.carryOut _ (readCommand_lengthOk hc)
  · exact h.congr rfl rfl rfl

/-! ### One step -/

theorem powerOn (s : State) : s.powerOn.SettingsLaw :=
  congr (s := State.reset) ((State.settingsLaw_iff _).2 (by decide)) rfl rfl rfl

theorem setHeader (h : s.SettingsLaw) (x : HeaderState) : (s.setHeader x).SettingsLaw := h.congr rfl rfl rfl

theorem resetFalls (h : s.SettingsLaw) : s.resetFalls.SettingsLaw := by
  rw [State.resetFalls_eq]; exact h.congr rfl rfl rfl

theorem emission (h : s.SettingsLaw) : s.settleEmission.SettingsLaw := by
  rcases hd : s.paths.emissionDue with _ | e
  · rwa [State.settleEmission_of_none hd]
  · rw [State.settleEmission_of_some hd]; exact h.same ⟨rfl, rfl, rfl, rfl⟩

theorem watchdogExpires (h : s.SettingsLaw) : s.watchdogExpires.SettingsLaw := by
  simp only [State.watchdogExpires]
  split
  · exact congr (notify (h.congr (t := s.leaveRun .coasting) rfl rfl rfl) .frameLost none []) rfl rfl rfl
  · exact h

theorem ifEnds (h : s.SettingsLaw) (ends : Bool) (ht : t.SettingsLaw) : (s.ifEnds ends t).SettingsLaw := by
  simp only [State.ifEnds]
  split
  · exact ht
  · exact h

/-- The visit of a record at which a countdown may end. -/
theorem visit {id : Nat} {ends : Record → Bool} (h : s.SettingsLaw) (hst : s.SameSettings t) :
    (s.withRecord id fun r => s.ifEnds (ends r) t).SettingsLaw := by
  simp only [State.withRecord]
  split
  · exact h.ifEnds _ (h.same hst)
  · exact h

/-- What each part of a step makes of the settings. -/
theorem keptByParts : State.KeptByParts State.SettingsLaw where
  queue _ h := h.congr rfl rfl rfl
  race h := h.congr rfl rfl rfl
  ports _ _ _ h := h.congr rfl rfl rfl
  powerOn _ := powerOn _
  resetFalls := resetFalls
  reserve _ _ h := h.congr rfl rfl rfl
  wait _ h := h.congr rfl rfl rfl
  discard _ h := h.congr rfl rfl rfl
  cell payload _ h := takeCell (h.setHeader .none) payload
  command tag c _ h := takeCommand (h.setHeader .none) tag c
  marker frame h := h.takeMarker frame
  malformed _ _ h := congr (h.notify _ _ _) rfl rfl rfl
  edited es _ _ _ _ _ h := congr (h.same (.reportRegion _ es)) rfl rfl rfl
  emitted _ _ h := h.congr rfl rfl rfl
  grantReport id o snr _ h := h.same (SameSettings.closed.grantReport _ id o snr)
  pollReport select id frame m _ h := h.same (SameSettings.closed.pollReport select _ id frame m)
  contention b _ h := h.same (.contention _ b)
  endFrame select frame _ h := h.same (SameSettings.closed.endFrame select _ frame)
  emission := emission
  sent _ h := h.congr rfl rfl rfl
  cleared _ h := h.congr rfl rfl rfl
  watchdog := watchdogExpires
  entryStage last h := h.nextEntryStage last
  entry := nextEntry
  reclamp := reclampAll
  holdOff id h := h.visit (SameSettings.closed.update _ id _)
  probation id h := h.visit (SameSettings.closed.update _ id _)
  confirmTimer id h := h.visit (SameSettings.closed.marker.confirmVisit _ id)
  storm h := h.ifEnds _ h.countStorm
  levelHold h := h.ifEnds _ h.holdLevel
  resetStep := nextResetStep

end State.SettingsLaw

/-- Settles O58: the settings are the law by block, which every part of a step keeps. -/
theorem settingsKeptByEveryStep : Obligations.SettingsKeptByEveryStep :=
  fun s t hs he => t.settingsLaw_iff.1 (State.SettingsLaw.keptByParts.step (s.settingsLaw_iff.2 hs) he)

end Sys2Proof.Machine
end

section
/-! The Profile Table in use (R45, R47 to R53): LOAD_PROFILES by its checks and its re-clamp, the highest profile that meets a
condition, the averaged SNR, and the profile that selection gives on it. -/

namespace Sys2Proof.Machine

open Sys2Proof

/-! ## LOAD_PROFILES (R48 to R50) -/

section
variable {s : State} {w : List ProfileWire} (hm : s.si.mode = .config) (tag : Byte)

include hm

theorem State.loadProfilesCommand_of_failure {status : Status} (h : profileFailure (w.map profileOfWire) = some status) :
    s.loadProfilesCommand tag w = (s, some { status := status }) := by
  simp only [State.loadProfilesCommand, hm, h]
  rfl

theorem State.loadProfilesCommand_of_passed (h : profileFailure (w.map profileOfWire) = none) :
    s.loadProfilesCommand tag w = (s.setInFlight (some (.loadProfiles tag (w.map profileOfWire) 0)), none) := by
  simp only [State.loadProfilesCommand, hm, h]
  rfl

end

/-- Settles O20: the length, the mode, then the checks of the table (`profileFailure_eq`). -/
theorem loadProfilesIsChecked : Obligations.LoadProfilesIsChecked := by
  intro s tag w hs t inRange ordered
  have fails {status : Status} (hl : w.length = 8) (hm : s.si.mode = .config) (h : profileFailure t = some status) :
      exec (.loadProfiles tag w) s = .next (s.answered tag 0x09 { status := status }) :=
    exec_answered (c := .loadProfiles w) rfl (beq_iff_eq.2 hl) hs
      (State.loadProfilesCommand_of_failure (s := s.cellRemoved 0) hm tag h)
  refine ⟨fun hl => ?_, fun hl => ⟨fun hm => ?_, fun hm => ⟨fun hr => ?_, fun hr ho => ?_, fun hr h0 ho => ?_⟩⟩⟩
  · exact exec_badLength (c := .loadProfiles w) rfl (beq_eq_false_iff_ne.2 hl) hs
  · exact exec_answered (c := .loadProfiles w) rfl (beq_iff_eq.2 hl) hs (if_pos hm)
  · exact fails hl hm ((profileFailure_eq t).trans (if_pos hr))
  · exact fails hl hm ((profileFailure_eq t).trans ((if_neg (not_not.2 hr)).trans (if_pos ho)))
  · have passed : profileFailure t = none := by
      rw [profileFailure_eq, if_neg (not_not.2 hr), if_neg (not_or.2 ⟨by simp [h0], not_not.2 ho⟩)]
    rw [exec_of_commandReady (c := .loadProfiles w) rfl (beq_iff_eq.2 hl) hs]
    refine congrArg Host.Outcome.next (State.carryOut_of_none ?_)
    exact State.loadProfilesCommand_of_passed (s := s.cellRemoved 0) hm tag passed

/-! ## The highest profile that meets a condition (R50) -/

/-- A profile that the search of `highestProfile` may give: within the bound, enabled, and meeting the condition. -/
def profileFits (t : List ProfileEntry) (bound : Nat) (ok : ProfileEntry → Bool) (p : Nat) : Prop :=
  p ≤ bound ∧ (profileAt t p).enabled = true ∧ ok (profileAt t p) = true

theorem le_getLast?_of_pairwise {l : List Nat} (hl : l.Pairwise (· < ·)) {x y : Nat} (hx : l.getLast? = some x) (hy : y ∈ l) :
    y ≤ x := by
  obtain ⟨before, rfl⟩ := List.getLast?_eq_some_iff.1 hx
  rcases List.mem_append.1 hy with hy | hy
  · exact Nat.le_of_lt ((List.pairwise_append.1 hl).2.2 y hy x (List.mem_singleton_self x))
  · exact (List.mem_singleton.1 hy).le

/-- The search gives the highest profile that fits, and P0 where none does. -/
theorem highestProfile_spec (t : List ProfileEntry) (bound : Nat) (ok : ProfileEntry → Bool) :
    (profileFits t bound ok (highestProfile t bound ok) ∧
      ∀ p, profileFits t bound ok p → p ≤ highestProfile t bound ok) ∨
    (highestProfile t bound ok = 0 ∧ ∀ p, ¬ profileFits t bound ok p) := by
  let fitting := (List.range (bound + 1)).filter fun p => (profileAt t p).enabled && ok (profileAt t p)
  have listed (p : Nat) : p ∈ fitting ↔ profileFits t bound ok p := by
    simp only [fitting, List.mem_filter, List.mem_range, Bool.and_eq_true, profileFits, Nat.lt_succ_iff]
  have sorted : fitting.Pairwise (· < ·) := List.pairwise_lt_range.sublist List.filter_sublist
  have given : highestProfile t bound ok = fitting.getLast?.getD 0 := rfl
  rcases hl : fitting.getLast? with _ | x
  · rw [List.getLast?_eq_none_iff] at hl
    exact .inr ⟨by rw [given, hl]; rfl, fun p hp => by rw [← listed, hl] at hp; cases hp⟩
  · rw [given, hl]
    exact .inl ⟨(listed x).1 (List.mem_of_getLast? hl), fun p hp => le_getLast?_of_pairwise sorted hl ((listed p).2 hp)⟩

section
variable {t : List ProfileEntry} {bound : Nat} {ok : ProfileEntry → Bool}

theorem highestProfile_eq {p : Nat} (hp : profileFits t bound ok p) (highest : ∀ q, profileFits t bound ok q → q ≤ p) :
    highestProfile t bound ok = p := by
  rcases highestProfile_spec t bound ok with ⟨fits, above⟩ | ⟨_, none⟩
  · exact Nat.le_antisymm (highest _ fits) (above p hp)
  · exact absurd hp (none p)

theorem highestProfile_eq_zero (h : ∀ q, ¬ profileFits t bound ok q) : highestProfile t bound ok = 0 := by
  rcases highestProfile_spec t bound ok with ⟨fits, _⟩ | ⟨zero, _⟩
  · exact absurd fits (h _)
  · exact zero

end

/-- With P0 enabled, the effective ceiling is the highest enabled profile at or below the record's own ceiling (R50). -/
theorem effectiveCeiling_spec {t : List ProfileEntry} (h0 : (profileAt t 0).enabled = true) (r : Record) :
    (profileAt t (effectiveCeiling t r)).enabled = true ∧
      ∀ p, p ≤ r.ceiling → (profileAt t p).enabled = true → p ≤ effectiveCeiling t r := by
  rcases highestProfile_spec t r.ceiling fun _ => true with ⟨⟨_, enabled, _⟩, above⟩ | ⟨_, none⟩
  · exact ⟨enabled, fun p hp he => above p ⟨hp, he, rfl⟩⟩
  · exact absurd ⟨Nat.zero_le _, h0, rfl⟩ (none 0)

/-- Below the effective ceiling or below the record's own, the same profiles are enabled (R50). -/
theorem profileFits_effectiveCeiling {t : List ProfileEntry} (h0 : (profileAt t 0).enabled = true) (r : Record)
    (ok : ProfileEntry → Bool) (p : Nat) : profileFits t (effectiveCeiling t r) ok p ↔ profileFits t r.ceiling ok p :=
  ⟨fun ⟨hp, he, hok⟩ => ⟨hp.trans (effectiveCeiling_le t r), he, hok⟩,
    fun ⟨hp, he, hok⟩ => ⟨(effectiveCeiling_spec h0 r).2 p hp he, he, hok⟩⟩

/-! ## The re-clamp (R49, R50) -/

/-- The table and the records once a re-clamp has gone on from record `k`. -/
theorem State.installProfiles_eq (s : State) (t : List ProfileEntry) (k : Nat) : s.installProfiles t k = { s with
    lm := { profiles := t }
    tt := { s.tt with records := s.tt.records.map fun (e : Nat × Record) =>
      (e.1, if k < e.1 then { e.2 with profile := min e.2.profile (effectiveCeiling t e.2) } else e.2) } } := by
  simp only [State.installProfiles, State.updateAll, State.setRecords, reclamp_eq_min]

theorem State.reclampAll_of_inFlight {s : State} {tag : Byte} {t : List ProfileEntry} {k : Nat}
    (h : s.mu.inFlight = some (.loadProfiles tag t k)) :
    s.reclampAll = (s.installProfiles t k).completed tag 0x09 { status := .ok } := by
  simp only [State.reclampAll, h, State.complete_eq]
  rfl

/-- Without a table in flight there is nothing to put in force (log 5). -/
theorem State.reclampAll_of_not {s : State} (h : ∀ tag t k, s.mu.inFlight ≠ some (.loadProfiles tag t k)) :
    s.reclampAll = s := by
  unfold State.reclampAll
  split
  · next hf => exact absurd hf (h _ _ _)
  · rfl

/-- Settles O21: the table in flight, no table in flight, and the effective ceiling. -/
theorem reclampFollowsTable : Obligations.ReclampFollowsTable := by
  refine ⟨fun s tag t k hup hf => ?_, fun s hn => ?_, fun t r h0 => ?_⟩
  · refine next_whenUp hup ((State.reclampAll_of_inFlight hf).trans ?_)
    rw [State.installProfiles_eq]
  · exact congrArg Host.Outcome.next (by rw [State.reclampAll_of_not hn, State.whenUp, ite_self])
  · exact ⟨effectiveCeiling_le t r, effectiveCeiling_spec h0 r⟩

/-! ## The averaged SNR (R45) -/

/-- A quotient of a difference by a power of two stays between 0 and the difference. -/
theorem ediv_two_pow_between (d : Int) (k : Nat) : min 0 d ≤ d / 2 ^ k ∧ d / 2 ^ k ≤ max 0 d := by
  have pos : (0 : Int) < 2 ^ k := by positivity
  rcases le_total 0 d with hd | hd
  · exact ⟨(min_le_left _ _).trans (Int.ediv_nonneg hd pos.le), (Int.ediv_le_self _ hd).trans (le_max_right _ _)⟩
  · have low : d ≤ d / 2 ^ k := (Int.le_ediv_iff_mul_le pos).2 (by nlinarith [one_le_pow₀ (M₀ := Int) one_le_two (n := k)])
    exact ⟨(min_le_right _ _).trans low, (Int.ediv_nonpos_of_nonpos_of_neg hd pos).trans (le_max_left _ _)⟩

/-- Settles O35: the first sample, a further one with its bounds, and the range of average and selection value. -/
theorem averagingOfOneSample : Obligations.AveragingOfOneSample := by
  intro k avg x sample next
  refine ⟨fun ha => ?_, fun a ha => ?_, fun bounded => ?_⟩
  · subst ha; rfl
  · have further : next = a + (sample * 16 - a) / 2 ^ k := by subst ha; rfl
    obtain ⟨low, high⟩ := ediv_two_pow_between (sample * 16 - a) k
    rw [Int.fdiv_eq_ediv_of_nonneg _ (by positivity)]
    exact ⟨further, by omega, by omega⟩
  · obtain ⟨low, high⟩ := averaged_bounds k bounded x
    have floor : selectionValue next = next / 16 := rfl
    rw [Int.fdiv_eq_ediv_of_nonneg _ (by decide)]
    exact ⟨low, high, floor, by omega, by omega⟩

/-! ## Selection (R51 to R53) -/

/-- What both tests of selection search: the highest profile within the ceilings whose T is at or below a bound. -/
def carriedProfile (t : List ProfileEntry) (r : Record) (bound : Int) : Nat :=
  highestProfile t (effectiveCeiling t r) fun e => e.threshold ≤ bound

section
variable {t : List ProfileEntry} (h0 : (profileAt t 0).enabled = true) {r : Record} {bound : Int}

include h0

theorem fits_carriedProfile (p : Nat) : profileFits t (effectiveCeiling t r) (fun e => e.threshold ≤ bound) p ↔
    p ≤ r.ceiling ∧ (profileAt t p).enabled = true ∧ (profileAt t p).threshold ≤ bound := by
  rw [profileFits_effectiveCeiling h0]
  simp only [profileFits, decide_eq_true_eq]

theorem carriedProfile_eq {p : Nat}
    (hp : p ≤ r.ceiling ∧ (profileAt t p).enabled = true ∧ (profileAt t p).threshold ≤ bound)
    (highest : ∀ q, q ≤ r.ceiling ∧ (profileAt t q).enabled = true ∧ (profileAt t q).threshold ≤ bound → q ≤ p) :
    carriedProfile t r bound = p :=
  highestProfile_eq ((fits_carriedProfile h0 p).2 hp) fun q hq => highest q ((fits_carriedProfile h0 q).1 hq)

theorem carriedProfile_eq_zero
    (h : ∀ q, ¬ (q ≤ r.ceiling ∧ (profileAt t q).enabled = true ∧ (profileAt t q).threshold ≤ bound)) :
    carriedProfile t r bound = 0 :=
  highestProfile_eq_zero fun q hq => h q ((fits_carriedProfile h0 q).1 hq)

end

theorem downgrade_eq (t : List ProfileEntry) (r : Record) (v : Int) : downgrade t r v =
    if v < (profileAt t r.profile).threshold then carriedProfile t r v else r.profile := rfl

theorem upgrade_eq_max (t : List ProfileEntry) (hysteresis : Nat) (r : Record) (v : Int) :
    upgrade t hysteresis r v = max r.profile (carriedProfile t r (v - hysteresis)) := by
  simp only [upgrade, carriedProfile, le_sub_iff_add_le]
  split <;> omega

section
variable {t : List ProfileEntry} {hysteresis : Nat} {r : Record} {avg : Int} (ha : r.avg = some avg)

include ha

theorem selected_of_downgrade (h : downgrade t r (selectionValue avg) ≠ r.profile) :
    selected t hysteresis r = downgrade t r (selectionValue avg) := by
  simp only [selected, ha, if_pos h]

theorem selected_of_fading (h : downgrade t r (selectionValue avg) = r.profile) (hst : r.state = .fading) :
    selected t hysteresis r = r.profile := by
  simp only [selected, ha, h, hst, ne_eq, not_true_eq_false, if_false, if_true]

theorem selected_of_upgrade (h : downgrade t r (selectionValue avg) = r.profile) (hst : r.state ≠ .fading) :
    selected t hysteresis r = max r.profile (carriedProfile t r (selectionValue avg - hysteresis)) := by
  simp only [selected, ha, h, ne_eq, not_true_eq_false, if_false, if_neg hst, upgrade_eq_max]

end

/-- In a table that passes its checks, P0 has the lowest T of the enabled profiles (R48). -/
theorem threshold_zero_le {t : List ProfileEntry} (h : tableSound t) {p : Nat} (hp : (profileAt t p).enabled = true) :
    (profileAt t 0).threshold ≤ (profileAt t p).threshold := by
  obtain ⟨length, first, -, ordered⟩ := h
  obtain ⟨e, rest, rfl⟩ := List.exists_cons_of_ne_nil (List.ne_nil_of_length_pos (by omega : 0 < t.length))
  cases p with
  | zero => exact le_rfl
  | succ p =>
    have listed : p < rest.length := by
      by_contra hn
      have absent : profileAt (e :: rest) (p + 1) = disabledProfile :=
        List.getD_eq_default _ _ (by rw [List.length_cons]; omega)
      rw [absent] at hp
      cases hp
    have entry : profileAt (e :: rest) (p + 1) = rest[p] := List.getD_eq_getElem _ _ (by rw [List.length_cons]; omega)
    have enabled : e.enabled = true := first
    rw [List.filter_cons_of_pos enabled, List.pairwise_cons] at ordered
    rw [entry] at hp ⊢
    exact (ordered.1 _ (List.mem_filter.2 ⟨List.getElem_mem listed, hp⟩)).1.le

/-- Settles O36: the downgrade, a terminal on P0 below T(P0), FADING, and the upgrade. -/
theorem selectionFollowsAverage : Obligations.SelectionFollowsAverage := by
  intro t hysteresis r avg h0 ha v p fits
  have carried {bound : Int} {q : Nat} (hq : fits bound q) (highest : ∀ x, fits bound x → x ≤ q) :
      carriedProfile t r bound = q := carriedProfile_eq h0 hq highest
  have stays (hv : (profileAt t r.profile).threshold ≤ v) : downgrade t r v = r.profile :=
    (downgrade_eq t r v).trans (if_neg (Int.not_lt.2 hv))
  refine ⟨fun down hv hd highest hne => ?_, fun hp hv hn => ?_, fun hv hst => ?_, fun hv hst => ⟨fun up hu highest => ?_,
    fun hn => ?_⟩⟩
  · have found : downgrade t r v = down := by
      rw [downgrade_eq, if_pos hv]
      rcases hd with hd | ⟨rfl, none⟩
      · exact carried hd highest
      · exact carriedProfile_eq_zero h0 none
    exact (selected_of_downgrade ha (found.trans_ne hne)).trans found
  · have none (q : Nat) : ¬ fits v q := by
      rcases hn with sound | none
      · exact fun ⟨_, enabled, low⟩ => absurd ((threshold_zero_le sound enabled).trans low) (Int.not_le.2 hv)
      · exact none q
    have lower (q : Nat) : ¬ fits (v - hysteresis) q := fun ⟨hc, he, ht⟩ => none q ⟨hc, he, by omega⟩
    have same : downgrade t r v = r.profile := by
      rw [downgrade_eq, hp, if_pos hv]
      exact carriedProfile_eq_zero h0 none
    by_cases hst : r.state = .fading
    · exact (selected_of_fading ha same hst).trans hp
    · refine (selected_of_upgrade ha same hst).trans ?_
      rw [hp, show carriedProfile t r (v - hysteresis) = 0 from carriedProfile_eq_zero h0 lower, Nat.max_self]
  · exact selected_of_fading ha (stays hv) hst
  · rw [← carried hu highest]
    exact selected_of_upgrade ha (stays hv) hst
  · refine (selected_of_upgrade ha (stays hv) hst).trans ?_
    rw [show carriedProfile t r (v - hysteresis) = 0 from carriedProfile_eq_zero h0 hn, Nat.max_zero]

end Sys2Proof.Machine
end

section
/-! The reports LM counts (R38 to R44, R54, R55, R67, R86, R136): profile changes, failed and GOOD bursts of committed terminals,
and the keepalives of SHED ones. -/

namespace Sys2Proof.Machine

open Sys2Proof

/-! ## Records and notices -/

/-- A notice does not read the records, so it commutes with their changes. -/
theorem State.notify_put (s : State) (id : Nat) (q : Record) (kind : NoticeKind) (of : Option Nat) (values : List Int) :
    (s.notify kind of values).put id q = (s.put id q).notify kind of values := by
  have apart := s.notify_withTables (s.put id q).tt s.mp kind of values
  simp only [State.put] at apart ⊢
  rw [apart, State.notify_tt, State.notify_mp]

section
variable {s : State} {id : Nat} {r : Record} (hs : s.recordsSound) (h : s.record? id = some r)

theorem State.recordsSound_notify (hs : s.recordsSound) (kind : NoticeKind) (of : Option Nat) (values : List Int) :
    (s.notify kind of values).recordsSound := (State.recordsSound_congr (s.engineOnly_notify kind of values).ids).2 hs

include hs h

/-- Changes of one known record, one after another, are one replacement. -/
theorem State.update_put (q : Record) (f : Record → Record) : (s.put id q).update id f = s.put id (f q) := by
  rw [State.update_eq_put (s.recordsSound_put hs id q) (State.record?_put_self h q), State.put_put]

theorem State.update_put_notify (q : Record) (f : Record → Record) (kind : NoticeKind) (of : Option Nat) (values : List Int) :
    ((s.put id q).notify kind of values).update id f = (s.put id (f q)).notify kind of values := by
  have known : ((s.put id q).notify kind of values).record? id = some q :=
    (State.record?_notify ..).trans (State.record?_put_self h q)
  rw [State.update_eq_put (State.recordsSound_notify (s.recordsSound_put hs id q) ..) known, State.notify_put, State.put_put]

end

/-! ## Profile changes (R54, R55) -/

theorem reprofiled_eq (t : List ProfileEntry) (p : Nat) (r : Record) : reprofiled t p r =
    { r with profile := p, cost := airtimeCost t r.load p
             message := if r.state = .confirming ∧ r.message = some .admitMsg then some .admitMsg else some .profileSet } := by
  simp only [reprofiled]
  split
  · next hm => rw [hm.2]
  · rfl

section
variable {s : State} {id p : Nat} {r : Record}

theorem State.changeProfile_same (h : s.record? id = some r) : s.changeProfile id r.profile = s := by
  rw [State.changeProfile, State.withRecord_of_record? h, if_pos rfl]

/-- The record, the committed sum and the notice of a change; then the shed check where the cost has risen. -/
theorem State.changeProfile_of_ne (hs : s.recordsSound) (h : s.record? id = some r) (hp : p ≠ r.profile) :
    s.changeProfile id p =
      (let cost := airtimeCost s.lm.profiles r.load p
       let told := ((s.setSum (s.ac.committedSum + cost - r.cost)).put id (reprofiled s.lm.profiles p r)).notify
         .profileChanged (some id) [r.profile, p, cost]
       if r.cost < cost then told.shedCheck false else told) := by
  rw [State.changeProfile, State.withRecord_of_record? h, if_neg hp, State.update_eq_put hs h]
  rfl

end

/-- Settles O32: no change, and a change by `State.changeProfile_of_ne`. -/
theorem profileChangeConsequences : Obligations.ProfileChangeConsequences := by
  intro s id p r hs h
  refine ⟨State.changeProfile_same h, fun hp => ?_⟩
  rw [State.changeProfile_of_ne hs h hp, reprofiled_eq]
  rfl

/-! ## Failed bursts (R38 to R41) -/

theorem fadeStep_of_failed {o : BurstOutcome} (h : o ≠ .good) : fadeStep o = if o = .crcBad then 4 else 8 := by
  cases o with
  | good => exact absurd rfl h
  | crcBad => rfl
  | missed => rfl

/-- The warning of a fade counter that passes the warning limit (R40). -/
def State.warnFade (s : State) (id before fade : Nat) : State :=
  if before ≤ s.params.warningLimit ∧ s.params.warningLimit < fade then s.notify .fadeWarning (some id) [fade] else s

@[simp] theorem State.record?_warnFade (s : State) (id before fade k : Nat) :
    (s.warnFade id before fade).record? k = s.record? k := by
  simp only [State.warnFade]
  split
  · exact State.record?_notify ..
  · rfl

@[simp] theorem State.warnFade_lm (s : State) (id before fade : Nat) : (s.warnFade id before fade).lm = s.lm := by
  simp only [State.warnFade]
  split
  · exact State.notify_lm ..
  · rfl

@[simp] theorem State.warnFade_params (s : State) (id before fade : Nat) :
    (s.warnFade id before fade).params = s.params := by
  simp only [State.warnFade]
  split
  · exact State.notify_params ..
  · rfl

section
variable {s : State} {id : Nat} {r : Record} {o : BurstOutcome} (h : s.record? id = some r)

theorem State.countFailure_of_lost (h : s.record? id = some r) (hf : 255 < r.fade + fadeStep o) :
    s.countFailure id o = s.lose .fade id := by
  rw [State.countFailure, State.withRecord_of_record? h, if_pos hf]

variable (hs : s.recordsSound)

include hs h

theorem State.update_put_warnFade (q : Record) (f : Record → Record) (before fade : Nat) :
    ((s.put id q).warnFade id before fade).update id f = (s.put id (f q)).warnFade id before fade := by
  by_cases hw : before ≤ s.params.warningLimit ∧ s.params.warningLimit < fade
  · exact (congrArg (State.update · id f) (if_pos hw)).trans
      ((State.update_put_notify hs h q f _ _ _).trans (if_pos hw).symm)
  · exact (congrArg (State.update · id f) (if_neg hw)).trans ((State.update_put hs h q f).trans (if_neg hw).symm)

theorem State.countFailure_of_kept (hf : r.fade + fadeStep o ≤ 255) : s.countFailure id o =
    (s.put id { r with fade := r.fade + fadeStep o }).warnFade id r.fade (r.fade + fadeStep o) := by
  simp only [State.countFailure, State.withRecord_of_record? h, if_neg (Nat.not_lt.2 hf), State.update_eq_put hs h]
  rfl

omit hs in
/-- A terminal that is lost does not enter FADING. -/
theorem State.failedReport_of_lost (hf : 255 < r.fade + fadeStep o) : s.failedReport id o = s.lose .fade id := by
  have lost : (s.lose .fade id).record? id = some (lostRecord s.params.holdOffBase s.si.markerCount .fade r) := by
    rw [State.record?_lose, h]; rfl
  have gone : (lostRecord s.params.holdOffBase s.si.markerCount .fade r).state ≠ .inService := by
    simp only [lostRecord, stateAfterLoss]
    split_ifs <;> decide
  rw [State.failedReport, State.countFailure_of_lost h hf, State.withRecord_of_record? lost, if_neg fun hc => gone hc.1]

theorem State.failedReport_of_kept (hf : r.fade + fadeStep o ≤ 255)
    (hk : r.state ≠ .inService ∨ r.fade + fadeStep o ≤ 127) : s.failedReport id o =
      (s.put id { r with fade := r.fade + fadeStep o }).warnFade id r.fade (r.fade + fadeStep o) := by
  have known := (State.record?_warnFade _ id r.fade (r.fade + fadeStep o) id).trans
    (State.record?_put_self h { r with fade := r.fade + fadeStep o })
  rw [State.failedReport, State.countFailure_of_kept h hs hf, State.withRecord_of_record? known, if_neg]
  exact fun hc => hk.elim (fun hn => hn hc.1) (Nat.not_le.2 hc.2)

/-- An IN_SERVICE terminal whose counter passes 127 enters FADING: the notice, and the pin where it is below the assigned
profile (R41). -/
theorem State.failedReport_of_fading (hf : r.fade + fadeStep o ≤ 255) (hst : r.state = .inService)
    (hfade : 127 < r.fade + fadeStep o) : s.failedReport id o =
      (let fade := r.fade + fadeStep o
       let target := highestProfile s.lm.profiles (min r.profile s.params.fadeProfile) fun _ => true
       let entered := ((s.put id { r with fade := fade, state := .fading }).warnFade id r.fade fade).notify .fadingEntered
         (some id) [fade, target]
       if target < r.profile then entered.changeProfile id target else entered) := by
  have known := (State.record?_warnFade _ id r.fade (r.fade + fadeStep o) id).trans
    (State.record?_put_self h { r with fade := r.fade + fadeStep o })
  rw [State.failedReport, State.countFailure_of_kept h hs hf, State.withRecord_of_record? known, if_pos ⟨hst, hfade⟩,
    State.enterFading, State.withRecord_of_record? known]
  simp only [State.update_put_warnFade h hs, State.warnFade_lm, State.warnFade_params]
  rfl

end

/-- A DATA or REPORT burst report in RUN goes to LM and is forwarded (R4, R43). -/
theorem exec_burstReport {s : State} (hs : s.usEngine) (kind : GrantKind) (b : Burst) : exec (.burstReport kind b) s =
    .next ((s.grantReport b.id.toNat b.outcome b.snr.toInt).readyUs (UsItem.burst kind b).bytes false) := by
  rw [exec_of_usReady rfl hs.1]
  exact congrArg Host.Outcome.next (if_pos hs.2)

/-- LM has no effect on a terminal that is not committed (R38). -/
theorem State.grantReport_of_not_committed {s : State} {id : Nat}
    (h : ∀ r, s.record? id = some r → r.state.committed = false) (o : BurstOutcome) (snr : Int) :
    s.grantReport id o snr = s := by
  rcases hr : s.record? id with _ | r
  · exact State.withRecord_vacant hr _
  · exact (State.withRecord_of_record? hr _).trans (if_neg (by simp [h r hr]))

theorem State.grantReport_of_failed {s : State} {id : Nat} {r : Record} (h : s.record? id = some r)
    (hc : r.state.committed = true) {o : BurstOutcome} (ho : o ≠ .good) (snr : Int) :
    s.grantReport id o snr = s.failedReport id o := by
  refine (State.withRecord_of_record? h _).trans ((if_pos hc).trans ?_)
  cases o with
  | good => exact absurd rfl ho
  | crcBad => rfl
  | missed => rfl

/-- Settles O31: no committed terminal, the loss, the count with its warning, and FADING entry. -/
theorem failedReportCounts : Obligations.FailedReportCounts := by
  intro s kind b hs hsound id forwarded
  refine ⟨fun hn => ?_, fun r h hst ho => ?_⟩
  · have idle (r : Record) (h : s.record? id = some r) : r.state.committed = false := by
      obtain ⟨hc, hi, hf⟩ := hn r h
      rw [Bool.eq_false_iff, ne_eq, TState.committed_iff]
      tauto
    rw [exec_burstReport hs, State.grantReport_of_not_committed idle]
  · intro fade warned
    have step : r.fade + fadeStep b.outcome = fade := congrArg _ (fadeStep_of_failed ho)
    rw [exec_burstReport hs, State.grantReport_of_failed h ((TState.committed_iff _).2 hst) ho]
    refine ⟨fun hf => ?_, fun hf hk => ?_, fun hf hin hfade => ?_⟩
    · rw [State.failedReport_of_lost h (step ▸ hf)]
    · rw [State.failedReport_of_kept h hsound (step ▸ hf) (step ▸ hk), step]
      rfl
    · rw [State.failedReport_of_fading h hsound (step ▸ hf) hin (step ▸ hfade), step]
      rfl

/-! ## GOOD bursts (R39, R42, R43, R67, R136) -/

section
variable {s : State} {id : Nat} {r : Record} (h : s.record? id = some r)

include h

/-- The four stages of R43 for a GOOD burst of a committed terminal. -/
theorem State.grantReport_of_good (hc : r.state.committed = true) (snr : Int) : s.grantReport id .good snr =
    (let t := (s.goodReport id).confirmIfWaiting id
     (t.update id (averageInto t.params.snrShift snr)).selectCommitted id) :=
  (State.withRecord_of_record? h _).trans (if_pos hc)

theorem State.goodReport_of_confirming (hst : r.state = .confirming) : s.goodReport id = s := by
  rw [State.goodReport, State.withRecord_of_record? h, if_pos hst]

theorem State.confirmIfWaiting_of_not (hst : r.state ≠ .confirming) : s.confirmIfWaiting id = s := by
  rw [State.confirmIfWaiting, State.withRecord_of_record? h, if_neg hst]

/-- The average and the selection, the last two stages. -/
theorem State.selectCommitted_averaged (hs : s.recordsSound) (k : Nat) (snr : Int) :
    (s.update id (averageInto k snr)).selectCommitted id =
      (s.put id (averageInto k snr r)).changeProfile id
        (selected s.lm.profiles s.params.upgradeHysteresis (averageInto k snr r)) := by
  rw [State.update_eq_put hs h, State.selectCommitted, State.withRecord_of_record? (State.record?_put_self h _)]
  rfl

variable (hs : s.recordsSound)

include hs

theorem State.goodReport_of_counted (hst : r.state ≠ .confirming)
    (hx : ¬ (r.state = .fading ∧ r.fade - 1 ≤ s.params.fadeExit)) :
    s.goodReport id = s.put id { r with fade := r.fade - 1 } := by
  simp only [State.goodReport, State.withRecord_of_record? h, if_neg hst, State.update_eq_put hs h]
  exact if_neg hx

/-- FADING exit (R42). -/
theorem State.goodReport_of_exit (hst : r.state = .fading) (hx : r.fade - 1 ≤ s.params.fadeExit) :
    s.goodReport id = (s.put id { r with fade := r.fade - 1, state := .inService }).notify .fadingCleared (some id)
      [((r.fade - 1 : Nat) : Int)] := by
  have waits : r.state ≠ .confirming := by rw [hst]; decide
  simp only [State.goodReport, State.withRecord_of_record? h, if_neg waits, State.update_eq_put hs h, State.update_put hs h]
  exact if_pos ⟨hst, hx⟩

/-- Confirmation with its restoration accounting (R67, R136). -/
theorem State.confirmIfWaiting_of_confirming (hst : r.state = .confirming) : s.confirmIfWaiting id =
    (let q := restoredRecord s.params.probationLength s.si.markerCount (confirmedRecord s.params.probationStart r)
     (s.put id q).notify .terminalRestored (some id)
      [((match r.outageStart with
        | some start => outageLength s.si.markerCount start
        | none => 0 : Nat) : Int), q.backoff]) := by
  rw [State.confirmIfWaiting, State.withRecord_of_record? h, if_pos hst, State.update_eq_put hs h, State.restore,
    State.withRecord_of_record? (State.record?_put_self h _), State.update_put hs h]
  cases ho : r.outageStart <;> simp only [confirmedRecord, ho] <;> rfl

/-- The stages of R43 where the first two have made one replacement of the record. -/
theorem State.grantReport_of_put (hc : r.state.committed = true) {q : Record}
    (hq : (s.goodReport id).confirmIfWaiting id = s.put id q) (snr : Int) : s.grantReport id .good snr =
      (s.put id (averageInto s.params.snrShift snr q)).changeProfile id
        (selected s.lm.profiles s.params.upgradeHysteresis (averageInto s.params.snrShift snr q)) := by
  rw [State.grantReport_of_good h hc]
  simp only [hq]
  rw [State.selectCommitted_averaged (State.record?_put_self h q) (s.recordsSound_put hs id q), State.put_put]
  rfl

/-- The same where they have told of it. -/
theorem State.grantReport_of_told (hc : r.state.committed = true) {q : Record} {kind : NoticeKind} {values : List Int}
    (hq : (s.goodReport id).confirmIfWaiting id = (s.put id q).notify kind (some id) values) (snr : Int) :
    s.grantReport id .good snr =
      ((s.put id (averageInto s.params.snrShift snr q)).notify kind (some id) values).changeProfile id
        (selected s.lm.profiles s.params.upgradeHysteresis (averageInto s.params.snrShift snr q)) := by
  have known : ((s.put id q).notify kind (some id) values).record? id = some q :=
    (State.record?_notify ..).trans (State.record?_put_self h q)
  rw [State.grantReport_of_good h hc]
  simp only [hq]
  rw [State.selectCommitted_averaged known (State.recordsSound_notify (s.recordsSound_put hs id q) ..), State.notify_put,
    State.put_put, State.notify_lm, State.notify_params]
  rfl

end

/-- Settles O34: IN_SERVICE, FADING above the exit limit, FADING exit, and confirmation. -/
theorem goodReportStages : Obligations.GoodReportStages := by
  intro s kind b r hs hsound hg h id avg forwarded
  have committed (hst : r.state = .confirming ∨ r.state = .inService ∨ r.state = .fading) := (TState.committed_iff _).2 hst
  have counted (hst : r.state ≠ .confirming) (hx : ¬ (r.state = .fading ∧ r.fade - 1 ≤ s.params.fadeExit)) :
      (s.goodReport id).confirmIfWaiting id = s.put id { r with fade := r.fade - 1 } := by
    rw [State.goodReport_of_counted h hsound hst hx]
    exact State.confirmIfWaiting_of_not (State.record?_put_self h _) hst
  rw [exec_burstReport hs, hg]
  refine ⟨fun hst => ?_, fun hst hx => ?_, fun hst hx => ?_, fun hst => ?_⟩
  · rw [State.grantReport_of_put h hsound (committed (.inr (.inl hst))) (counted (by simp [hst]) (by simp [hst]))]
    rfl
  · rw [State.grantReport_of_put h hsound (committed (.inr (.inr hst)))
      (counted (by simp [hst]) fun hc => Nat.not_le.2 hx hc.2)]
    rfl
  · have exited := (congrArg (State.confirmIfWaiting · id) (State.goodReport_of_exit h hsound hst hx)).trans
      (State.confirmIfWaiting_of_not ((State.record?_notify ..).trans (State.record?_put_self h _))
        (show TState.inService ≠ .confirming by decide))
    rw [State.grantReport_of_told h hsound (committed (.inr (.inr hst))) exited]
    rfl
  · intro outage q
    have confirmed := (congrArg (State.confirmIfWaiting · id) (State.goodReport_of_confirming h hst)).trans
      (State.confirmIfWaiting_of_confirming h hsound hst)
    have record : averageInto s.params.snrShift b.snr.toInt
        (restoredRecord s.params.probationLength s.si.markerCount (confirmedRecord s.params.probationStart r)) = q := by
      cases ho : r.outageStart <;> simp only [averageInto, restoredRecord, confirmedRecord, q, outage, ho] <;> rfl
    rw [State.grantReport_of_told h hsound (committed (.inl hst)) confirmed, record]
    rfl

/-! ## Keepalives (R44, R53, R86) -/

/-- A record with the profile that selection gives it (R53). -/
def chosenRecord (t : List ProfileEntry) (hysteresis : Nat) (r : Record) : Record :=
  { r with profile := selected t hysteresis r }

/-- A record after a stage of silent selection that is, or is not, carried out (R44; log 3). -/
def silentRecord (select : Bool) (t : List ProfileEntry) (hysteresis : Nat) (r : Record) : Record :=
  if select then chosenRecord t hysteresis r else r

/-- A record whose keepalive has been answered or missed: no poll outstanding, and the next one due (R86). -/
def keptRecord (interval : Nat) (now : MarkerCount) (r : Record) : Record :=
  { r with outstanding := none, keepaliveDue := after now interval }

section
variable {s : State} {id : Nat} {r : Record} (hs : s.recordsSound) (h : s.record? id = some r)

theorem State.selectSilently_eq (s : State) (id : Nat) : s.selectSilently id =
    s.update id (chosenRecord s.lm.profiles s.params.upgradeHysteresis) := rfl

/-- A failed keepalive is counted, and is followed by silent selection where log 3 has it and the terminal is not lost. -/
theorem State.countKeepalive_of_failed (select : Bool) (s : State) (id : Nat) {o : BurstOutcome} (ho : o ≠ .good) (snr : Int) :
    State.countKeepalive select s id o snr =
      if select ∧ (s.countFailure id o).stateOf id = some .shed then (s.countFailure id o).selectSilently id
      else s.countFailure id o := by
  cases o with
  | good => exact absurd rfl ho
  | crcBad => rfl
  | missed => rfl

include h

theorem State.countKeepalive_of_lost (select : Bool) {o : BurstOutcome} (ho : o ≠ .good) (hf : 255 < r.fade + fadeStep o)
    (snr : Int) : State.countKeepalive select s id o snr = s.lose .fade id := by
  have gone : ¬ (select = true ∧ (s.lose .fade id).stateOf id = some .shed) := fun ⟨_, hc⟩ => by
    simp only [State.stateOf, State.record?_lose, h, Option.map_some, lostRecord, stateAfterLoss, Option.some.injEq] at hc
    split_ifs at hc
  rw [State.countKeepalive_of_failed select s id ho, State.countFailure_of_lost h hf, if_neg gone]

include hs

theorem State.countKeepalive_of_good (select : Bool) (snr : Int) : State.countKeepalive select s id .good snr =
    s.put id (chosenRecord s.lm.profiles s.params.upgradeHysteresis
      (averageInto s.params.snrShift snr { r with fade := r.fade - 1 })) := by
  simp only [State.countKeepalive, State.selectSilently_eq, State.update_eq_put hs h, State.update_put hs h]
  rfl

theorem State.countKeepalive_of_kept (select : Bool) {o : BurstOutcome} (ho : o ≠ .good) (hst : r.state = .shed)
    (hf : r.fade + fadeStep o ≤ 255) (snr : Int) : State.countKeepalive select s id o snr =
      (s.put id (silentRecord select s.lm.profiles s.params.upgradeHysteresis { r with fade := r.fade + fadeStep o })).warnFade
        id r.fade (r.fade + fadeStep o) := by
  have shed : ((s.put id { r with fade := r.fade + fadeStep o }).warnFade id r.fade (r.fade + fadeStep o)).stateOf id =
      some .shed := by
    rw [State.stateOf, State.record?_warnFade, State.record?_put_self h, ← hst]
    rfl
  rw [State.countKeepalive_of_failed select s id ho, State.countFailure_of_kept h hs hf, shed, State.selectSilently_eq,
    State.update_put_warnFade h hs, State.warnFade_lm, State.warnFade_params]
  cases select <;> rfl

/-- A poll of a SHED terminal, its outstanding poll cleared, is a keepalive of the record so kept (R83, R86). -/
theorem State.judgePoll_of_shed (select : Bool) (hst : r.state = .shed) (m : Measurement) :
    State.judgePoll select (s.update id clearPoll) id m =
      State.countKeepalive select (s.put id (keptRecord s.params.keepaliveInterval s.si.markerCount r)) id m.outcome m.snr := by
  have shed : (s.put id (clearPoll r)).stateOf id = some .shed := by
    rw [State.stateOf, State.record?_put_self h, ← hst]
    rfl
  rw [State.update_eq_put hs h]
  simp only [State.judgePoll, shed, State.judgeKeepalive, State.update_put hs h]
  rfl

end

/-- A POLL report in RUN goes to MP and is consumed (R4, R83). -/
theorem exec_pollReport {s : State} (hs : s.usEngine) (b : Burst) : exec (.pollReport b) s =
    .next (State.pollReport Config.selectAfterFailedKeepalive s b.id.toNat b.frame (measurementOf b)) := by
  rw [exec_of_usReady rfl hs.1]
  exact congrArg Host.Outcome.next (if_pos hs.2)

/-- A report that matches the outstanding poll clears it and is judged (R83). -/
theorem State.pollReport_of_matched {s : State} {id : Nat} {r : Record} {frame : FrameNumber} (h : s.record? id = some r)
    (ha : answersPolls r.state = true) (ho : r.outstanding = some frame) (select : Bool) (m : Measurement) :
    State.pollReport select s id frame m = State.judgePoll select (s.update id clearPoll) id m :=
  (State.withRecord_of_record? h _).trans (if_pos ⟨ha, ho⟩)

/-- Settles O39: GOOD, then the loss and the count of a failure; the free value of log 3 says which record is left. -/
theorem keepaliveOutcomes : Obligations.KeepaliveOutcomes := by
  intro s b r hs hsound h hst hout id kept chosen
  have judged : exec (.pollReport b) s = .next (State.countKeepalive Config.selectAfterFailedKeepalive (s.put id kept) id
      b.outcome b.snr.toInt) := by
    rw [exec_pollReport hs, State.pollReport_of_matched h (by rw [hst]; rfl) hout, State.judgePoll_of_shed hsound h _ hst]
    rfl
  have known : (s.put id kept).record? id = some kept := State.record?_put_self h kept
  have sound : (s.put id kept).recordsSound := s.recordsSound_put hsound id kept
  refine ⟨fun hg => ?_, fun hg => ?_⟩
  · rw [judged, hg, State.countKeepalive_of_good sound known, State.put_put]
    rfl
  · intro fade
    have step : kept.fade + fadeStep b.outcome = fade := congrArg _ (fadeStep_of_failed hg)
    refine ⟨fun hf => ?_, fun hf => ?_⟩
    · rw [judged, State.countKeepalive_of_lost known _ hg (step ▸ hf)]
    · refine ⟨silentRecord Config.selectAfterFailedKeepalive s.lm.profiles s.params.upgradeHysteresis
        { kept with fade := fade }, ?_, ?_⟩
      · rw [silentRecord]
        split
        · exact .inr rfl
        · exact .inl rfl
      · rw [judged, State.countKeepalive_of_kept sound known _ hg hst (step ▸ hf), State.put_put, step]
        rfl

end Sys2Proof.Machine
end

section
/-! The end of a frame (R85 to R87, R90, R97): what the visit of one terminal makes of its outstanding poll, that it reaches no
other record, and the terminals one after another. -/

namespace Sys2Proof.Machine

open Sys2Proof

/-! ## Other records -/

section
variable {id k : Nat} (hk : k ≠ id)

include hk

theorem State.record?_put_of_ne (s : State) (q : Record) : (s.put id q).record? k = s.record? k := by
  rw [State.record?_put, if_neg hk]

/-- The loss of one terminal leaves every other record. -/
theorem State.record?_lose_of_ne {s : State} (hs : s.recordsSound) (reason : LossReason) :
    (s.lose reason id).record? k = s.record? k := by
  rcases hr : s.record? id with _ | r
  · rw [State.lose, State.withRecord_vacant hr]
  · have left := State.record?_put_of_ne hk (s.accountsLeft id r) (lostRecord s.params.holdOffBase s.si.markerCount reason r)
    rw [State.lose_of_record hs hr]
    dsimp only
    split
    · rw [State.record?_notify, State.record?_notify, left]; rfl
    · rw [State.record?_notify, left]; rfl

end

/-! ## The visit of one terminal (R87) -/

theorem frameReached_iff (n f : FrameNumber) : frameReached n f = true ↔ (n - f).toNat ≤ 32767 := by
  simp only [frameReached, decide_eq_true_eq]

section
variable {s : State} {id : Nat} (select : Bool) (n : FrameNumber)

theorem State.endPoll_of_vacant (h : s.record? id = none) : State.endPoll select n s id = s := State.withRecord_vacant h _

variable {r : Record} (hs : s.recordsSound) (h : s.record? id = some r)

/-- Without a poll of this frame or an earlier one there is nothing to judge. -/
theorem State.endPoll_of_later (h : s.record? id = some r) (hl : ∀ f, r.outstanding = some f → 32767 < (n - f).toNat) :
    State.endPoll select n s id = s := by
  rw [State.endPoll, State.withRecord_of_record? h]
  split
  · rfl
  · next f hf => exact if_neg (mt (frameReached_iff n f).1 (Nat.not_le.2 (hl f hf)))

variable {f : FrameNumber} (ho : r.outstanding = some f) (hf : (n - f).toNat ≤ 32767)

include h ho hf

/-- A poll of this frame or an earlier one is cleared and judged MISSED. -/
theorem State.endPoll_of_reached :
    State.endPoll select n s id = State.judgePoll select (s.update id clearPoll) id inferredMissed := by
  simp only [State.endPoll, State.withRecord_of_record? h, ho, (frameReached_iff n f).2 hf, if_true]

include hs

theorem State.endPoll_of_polling (hst : r.state = .polling) :
    State.endPoll select n s id = s.put id (missedPoll s.params s.si.markerCount (clearPoll r)) := by
  have state : (s.put id (clearPoll r)).stateOf id = some .polling := by
    rw [State.stateOf, State.record?_put_self h, ← hst]
    rfl
  rw [State.endPoll_of_reached select n h ho hf, State.update_eq_put hs h]
  simp only [State.judgePoll, state, State.judgePolling, inferredMissed, State.update_put hs h]
  rfl

/-- A missed ranging poll is an attempt without a measurement (R90, R97). -/
theorem State.endPoll_of_ranging (hst : r.state = .ranging) :
    State.endPoll select n s id = (s.put id (clearPoll r)).attempt id none := by
  have state : (s.put id (clearPoll r)).stateOf id = some .ranging := by
    rw [State.stateOf, State.record?_put_self h, ← hst]
    rfl
  rw [State.endPoll_of_reached select n h ho hf, State.update_eq_put hs h]
  simp only [State.judgePoll, state]
  exact State.measure_of_failed _ id (by decide)

theorem State.endPoll_of_attempt (hst : r.state = .ranging) (ha : r.attempts < s.params.rangingMaxAttempts) :
    State.endPoll select n s id = s.put id { r with outstanding := none, attempts := r.attempts + 1 } := by
  rw [State.endPoll_of_ranging select n hs h ho hf hst,
    State.attempt_of_left (s.recordsSound_put hs id _) (State.record?_put_self h (clearPoll r)) ha, State.put_put]
  rfl

theorem State.endPoll_of_rangingFailed (hst : r.state = .ranging) (ha : s.params.rangingMaxAttempts ≤ r.attempts) :
    State.endPoll select n s id = (s.put id (clearPoll r)).lose .rangingFailed id := by
  rw [State.endPoll_of_ranging select n hs h ho hf hst, State.attempt_of_last (State.record?_put_self h (clearPoll r)) ha]

theorem State.endPoll_of_shedLost (hst : r.state = .shed) (hl : 255 < r.fade + 8) : State.endPoll select n s id =
    (s.put id (keptRecord s.params.keepaliveInterval s.si.markerCount r)).lose .fade id := by
  rw [State.endPoll_of_reached select n h ho hf, State.judgePoll_of_shed hs h select hst]
  exact State.countKeepalive_of_lost (State.record?_put_self h _) select (by decide) hl 0

theorem State.endPoll_of_shedKept (hst : r.state = .shed) (hl : r.fade + 8 ≤ 255) : State.endPoll select n s id =
    (s.put id (silentRecord select s.lm.profiles s.params.upgradeHysteresis
      { keptRecord s.params.keepaliveInterval s.si.markerCount r with fade := r.fade + 8 })).warnFade id r.fade
        (r.fade + 8) := by
  rw [State.endPoll_of_reached select n h ho hf, State.judgePoll_of_shed hs h select hst]
  refine (State.countKeepalive_of_kept (o := .missed) (s.recordsSound_put hs id _)
    (State.record?_put_self h (keptRecord s.params.keepaliveInterval s.si.markerCount r)) select (by decide) hst hl 0).trans ?_
  rw [State.put_put]
  rfl

/-- In every other state an outstanding poll is cleared with no effect (R87). -/
theorem State.endPoll_of_other (hp : r.state ≠ .polling) (hr : r.state ≠ .ranging) (hd : r.state ≠ .shed) :
    State.endPoll select n s id = s.put id (clearPoll r) := by
  have state : (s.put id (clearPoll r)).stateOf id = some r.state := by
    rw [State.stateOf, State.record?_put_self h]
    rfl
  rw [State.endPoll_of_reached select n h ho hf, State.update_eq_put hs h]
  rw [State.judgePoll, state]
  split
  · next hc => exact absurd (Option.some.inj hc) hp
  · next hc => exact absurd (Option.some.inj hc) hr
  · next hc => exact absurd (Option.some.inj hc) hd
  · rfl

/-- The judging of a poll by the state of its record (R85, R86, R90, R97). -/
theorem State.endPoll_eq : State.endPoll select n s id =
    if r.state = .polling then s.put id (missedPoll s.params s.si.markerCount (clearPoll r))
    else if r.state = .ranging then
      if r.attempts < s.params.rangingMaxAttempts then s.put id { r with outstanding := none, attempts := r.attempts + 1 }
      else (s.put id (clearPoll r)).lose .rangingFailed id
    else if r.state = .shed then
      if 255 < r.fade + 8 then (s.put id (keptRecord s.params.keepaliveInterval s.si.markerCount r)).lose .fade id
      else (s.put id (silentRecord select s.lm.profiles s.params.upgradeHysteresis
        { keptRecord s.params.keepaliveInterval s.si.markerCount r with fade := r.fade + 8 })).warnFade id r.fade (r.fade + 8)
    else s.put id (clearPoll r) := by
  split_ifs with hp hr ha hd hl
  · exact State.endPoll_of_polling select n hs h ho hf hp
  · exact State.endPoll_of_attempt select n hs h ho hf hr ha
  · exact State.endPoll_of_rangingFailed select n hs h ho hf hr (Nat.not_lt.1 ha)
  · exact State.endPoll_of_shedLost select n hs h ho hf hd hl
  · exact State.endPoll_of_shedKept select n hs h ho hf hd (Nat.not_lt.1 hl)
  · exact State.endPoll_of_other select n hs h ho hf hp hr hd

/-- What the judging of a poll can come to: a replaced record without an outstanding poll, with a warning or a loss after
it. -/
theorem State.endPoll_cases : ∃ q : Record, q.outstanding = none ∧ (State.endPoll select n s id = s.put id q ∨
    (∃ before fade, State.endPoll select n s id = (s.put id q).warnFade id before fade) ∨
      ∃ reason, State.endPoll select n s id = (s.put id q).lose reason id) := by
  rw [State.endPoll_eq select n hs h ho hf]
  split_ifs
  · exact ⟨_, rfl, .inl rfl⟩
  · exact ⟨_, rfl, .inl rfl⟩
  · exact ⟨_, rfl, .inr (.inr ⟨_, rfl⟩)⟩
  · exact ⟨_, rfl, .inr (.inr ⟨_, rfl⟩)⟩
  · exact ⟨_, by cases select <;> rfl, .inr (.inl ⟨_, _, rfl⟩)⟩
  · exact ⟨_, rfl, .inl rfl⟩

/-- A poll that has been judged is outstanding no more. -/
theorem State.outstanding_endPoll : ((State.endPoll select n s id).record? id).map (·.outstanding) = some none := by
  obtain ⟨q, hq, put | ⟨before, fade, warned⟩ | ⟨reason, lost⟩⟩ := State.endPoll_cases select n hs h ho hf
  · rw [put, State.record?_put_self h, Option.map_some, hq]
  · rw [warned, State.record?_warnFade, State.record?_put_self h, Option.map_some, hq]
  · rw [lost, State.record?_lose, State.record?_put_self h]
    rfl

end

/-- The visit of one terminal leaves every other record. -/
theorem State.record?_endPoll_of_ne {s : State} (hs : s.recordsSound) (select : Bool) (n : FrameNumber) {id k : Nat}
    (hk : k ≠ id) : (State.endPoll select n s id).record? k = s.record? k := by
  rcases h : s.record? id with _ | r
  · rw [State.endPoll_of_vacant select n h]
  by_cases reached : ∃ f, r.outstanding = some f ∧ (n - f).toNat ≤ 32767
  · obtain ⟨f, ho, hf⟩ := reached
    obtain ⟨q, -, put | ⟨before, fade, warned⟩ | ⟨reason, lost⟩⟩ := State.endPoll_cases select n hs h ho hf
    · rw [put, State.record?_put_of_ne hk]
    · rw [warned, State.record?_warnFade, State.record?_put_of_ne hk]
    · rw [lost, State.record?_lose_of_ne hk (s.recordsSound_put hs id q), State.record?_put_of_ne hk]
  · rw [State.endPoll_of_later select n h fun f ho => Nat.not_le.1 fun hf => reached ⟨f, ho, hf⟩]

/-! ## The terminals one after another -/

theorem State.EngineOnly.recordsSound {s t : State} (h : s.EngineOnly t) (hs : s.recordsSound) : t.recordsSound :=
  (State.recordsSound_congr h.ids).2 hs

section
variable {s : State} (hs : s.recordsSound) (select : Bool) (n : FrameNumber)

theorem State.engineOnly_endPolls (l : List Nat) : s.EngineOnly (l.foldl (State.endPoll select n) s) :=
  State.engineOnly_foldl (State.engineOnly_endPoll select n) l s

include hs

/-- The visits of other terminals leave a record. -/
theorem State.record?_endPolls_of_not_mem {l : List Nat} {id : Nat} (hn : id ∉ l) :
    (l.foldl (State.endPoll select n) s).record? id = s.record? id := by
  induction l generalizing s with
  | nil => rfl
  | cons k l ih =>
    rw [List.mem_cons, not_or] at hn
    rw [List.foldl_cons, ih ((s.engineOnly_endPoll select n k).recordsSound hs) hn.2,
      State.record?_endPoll_of_ne hs select n hn.1]

/-- What the end of a frame makes of one record is what its own visit makes of it, in a state with the same record. -/
theorem State.record?_endFrame {id : Nat} {r : Record} (h : s.record? id = some r) : ∃ u : State, s.EngineOnly u ∧
    u.record? id = some r ∧ (State.endFrame select s n).record? id = (State.endPoll select n u id).record? id := by
  have listed : id ∈ s.ids := List.mem_map.2 ⟨(id, r), State.record?_mem h, rfl⟩
  obtain ⟨before, later, split⟩ := List.append_of_mem listed
  have once : (before ++ id :: later).Nodup := split ▸ State.ids_nodup hs
  obtain ⟨_, tail, apart⟩ := List.nodup_append.1 once
  have reached := State.engineOnly_endPolls (s := s) select n before
  refine ⟨before.foldl (State.endPoll select n) s, reached, ?_, ?_⟩
  · rw [State.record?_endPolls_of_not_mem hs select n fun hb => apart id hb id List.mem_cons_self rfl, h]
  · rw [State.endFrame, split, List.foldl_append, List.foldl_cons, State.record?_endPolls_of_not_mem _ select n
      (List.nodup_cons.1 tail).1]
    exact (State.engineOnly_endPoll select n _ id).recordsSound (reached.recordsSound hs)

end

/-- An operation that answers what another does wherever a kept property holds has the same runs. -/
theorem foldl_congr_kept {α : Type} {P : State → Prop} {op op' : State → α → State} (hkept : ∀ s a, P s → P (op s a))
    (h : ∀ s a, P s → op' s a = op s a) (l : List α) {s : State} (hs : P s) : l.foldl op' s = l.foldl op s := by
  induction l generalizing s with
  | nil => rfl
  | cons a l ih => rw [List.foldl_cons, List.foldl_cons, h s a hs, ih (hkept s a hs)]

/-- An end-of-frame report in RUN goes to MP and is forwarded (R4, R87). -/
theorem exec_endOfFrameReport {s : State} (hs : s.usEngine) (n : FrameNumber) (tail : List Byte) :
    exec (.endOfFrameReport n tail) s = .next ((State.endFrame Config.selectAfterFailedKeepalive s n).readyUs
      (UsItem.endOfFrame n tail).bytes true) := by
  rw [exec_of_usReady rfl hs.1]
  exact congrArg Host.Outcome.next (if_pos hs.2)

/-- Settles O40: each visit by the state of its record, what no visit changes, and each record after its own visit. -/
theorem endOfFrameJudgesPolls : Obligations.EndOfFrameJudgesPolls := by
  intro s n tail hs hsound missed kept silent judge
  let select := Config.selectAfterFailedKeepalive
  have visit (u : State) (id : Nat) (hu : s.EngineOnly u) : judge select u id = State.endPoll select n u id := by
    have sound := hu.recordsSound hsound
    rcases h : u.record? id with _ | r
    · rw [State.endPoll_of_vacant select n h]
      simp only [judge, h]
    rcases ho : r.outstanding with _ | f
    · rw [State.endPoll_of_later select n h (by simp [ho])]
      simp only [judge, h, ho]
    by_cases hf : 32767 < (n - f).toNat
    · rw [State.endPoll_of_later select n h fun g hg => by rw [ho] at hg; cases hg; exact hf]
      simp only [judge, h, ho, if_pos hf]
    · rw [State.endPoll_eq select n sound h ho (Nat.not_lt.1 hf), State.warnFade, State.put_params, hu.params, hu.markerCount,
        hu.lm]
      simp only [judge, h, ho, if_neg hf]
      rfl
  have frame := s.engineOnly_endFrame select n
  refine ⟨State.endFrame select s n, select, ?_, exec_endOfFrameReport hs n tail, frame.ids, frame.mode, frame.markerCount,
    frame.paths, frame.mp, frame.lm, frame.uq, frame.params, frame.insertion, frame.stationMap, fun id r h => ?_⟩
  · exact (foldl_congr_kept (fun u id hu => hu.trans (u.engineOnly_endPoll select n id)) visit _ (.rfl' s)).symm
  · obtain ⟨u, hu, known, own⟩ := State.record?_endFrame hsound select n h
    have sound := hu.recordsSound hsound
    rw [own]
    refine ⟨fun hl => ?_, fun f ho hf => ⟨?_, fun hst => ?_, fun hst ha => ?_, fun hst ha => ?_, fun hst hl => ?_,
      fun hst hl => ?_, fun hp hr hd => ?_⟩⟩
    · rw [State.endPoll_of_later select n known hl, known]
    · exact State.outstanding_endPoll select n sound known ho hf
    · rw [State.endPoll_of_polling select n sound known ho hf hst, State.record?_put_self known, hu.params, hu.markerCount]
      rfl
    · rw [State.endPoll_of_attempt select n sound known ho hf hst (hu.params ▸ ha), State.record?_put_self known]
    · rw [State.endPoll_of_rangingFailed select n sound known ho hf hst (hu.params ▸ ha), State.record?_lose,
        State.record?_lose, State.record?_put_self known, State.record?_put_self h]
      simp only [State.put_params, State.put_si, hu.params, hu.markerCount]
      rfl
    · rw [State.endPoll_of_shedKept select n sound known ho hf hst hl, State.record?_warnFade, State.record?_put_self known,
        hu.params, hu.markerCount, hu.lm]
      rfl
    · rw [State.endPoll_of_shedLost select n sound known ho hf hst hl, State.record?_lose, State.record?_lose,
        State.record?_put_self known, State.record?_put_self h]
      simp only [State.put_params, State.put_si, hu.params, hu.markerCount]
      rfl
    · rw [State.endPoll_of_other select n sound known ho hf hp hr hd, State.record?_put_self known]
      rfl

end Sys2Proof.Machine
end

section
/-! The seven stages of a marker one by one (R64 to R66, R70, R107, R110, R112 to R115, R129 to R132): what each of them makes of
the state, in the terms of the records and of AC's figures. -/

namespace Sys2Proof.Machine

open Sys2Proof

/-! ## The order of cancel resolution (log 2) -/

/-- Inserting by a rank keeps a list in the order of the ranks. -/
theorem insertBy_ranked (rank : Nat → Nat) (id : Nat) {l : List Nat} (h : l.Pairwise fun a b => rank a ≤ rank b) :
    (insertBy (fun a b => rank a < rank b) id l).Pairwise fun a b => rank a ≤ rank b := by
  induction l with
  | nil => simp [insertBy]
  | cons x l ih =>
    obtain ⟨least, later⟩ := List.pairwise_cons.1 h
    simp only [insertBy, decide_eq_true_eq]
    split
    · next before =>
      refine List.pairwise_cons.2 ⟨fun y hy => ?_, h⟩
      rcases List.mem_cons.1 hy with rfl | hy
      · exact before.le
      · exact before.le.trans (least y hy)
    · next behind =>
      refine List.pairwise_cons.2 ⟨fun y hy => ?_, ih later⟩
      rcases (mem_insertBy _ _ _ _).1 hy with rfl | hy
      · exact Nat.le_of_not_lt behind
      · exact least y hy

theorem sortBy_ranked (rank : Nat → Nat) (ids : List Nat) :
    (sortBy (fun a b => rank a < rank b) ids).Pairwise fun a b => rank a ≤ rank b := by
  induction ids with
  | nil => exact .nil
  | cons x l ih => exact insertBy_ranked rank x ih

/-! ## The visits of one record -/

theorem cancellable_iff (st : TState) : cancellable st = true ↔ st = .polling ∨ st = .ranging ∨ st = .admitWait := by
  cases st <;> decide

section
variable {s : State} {id : Nat} {r : Record} (hs : s.recordsSound) (h : s.record? id = some r)

include h

/-- Without a cancel request there is nothing to resolve. -/
theorem State.resolveCancel_of_not (hc : r.cancelReq = false) : s.resolveCancel id = s := by
  simp [State.resolveCancel, State.withRecord_of_record? h, hc]

/-- A record without a running confirm timer is not visited. -/
theorem State.confirmVisit_of_none (ht : r.confirmTimer = none) : s.confirmVisit id = s := by
  rw [State.confirmVisit, State.withRecord_of_record? h, ht]

include hs

/-- A cancel request is cleared, a re-entry in progress is lost, and the answer names the state found (R70). -/
theorem State.resolveCancel_of_set (hc : r.cancelReq = true) : s.resolveCancel id =
    (let cleared := s.put id { r with cancelReq := false }
     let left := if cancellable r.state then (cleared.lose .cancelled id).noteLost id else cleared
     left.notify .reentryCancelled (some id) [(if cancelTooLate r.state then 1 else 0 : Nat), r.state.code]) := by
  rw [State.resolveCancel, State.withRecord_of_record? h, if_pos hc,
    State.update_eq_put hs h fun r => { r with cancelReq := false }]

/-- A cancel request that gives up a re-entry, with its loss (R70). -/
theorem State.resolveCancel_of_cancellable (hc : r.cancelReq = true) (hst : cancellable r.state = true) :
    s.resolveCancel id = (((s.put id { r with cancelReq := false }).lose .cancelled id).noteLost id).notify .reentryCancelled
      (some id) [0, r.state.code] := by
  simp only [State.resolveCancel_of_set hs h hc, hst, if_true, cancelTooLate, Bool.true_or, Bool.not_true]
  rfl

/-- A cancel request that finds nothing to give up (R70). -/
theorem State.resolveCancel_of_not_cancellable (hc : r.cancelReq = true) (hst : cancellable r.state = false) :
    s.resolveCancel id = (s.put id { r with cancelReq := false }).notify .reentryCancelled (some id)
      [if r.state = .lost then 0 else 1, r.state.code] := by
  simp only [State.resolveCancel_of_set hs h hc, hst, cancelTooLate, Bool.false_or]
  by_cases hl : r.state = .lost <;> simp [hl]

/-- A confirm timer that goes on. -/
theorem State.confirmVisit_of_running {n : Nat} (ht : r.confirmTimer = some n) (hn : 1 < n) :
    s.confirmVisit id = s.put id { r with confirmTimer := some (n - 1) } := by
  rw [State.confirmVisit, State.withRecord_of_record? h, ht]
  exact (if_neg (by omega)).trans (State.update_eq_put hs h fun r => { r with confirmTimer := some (n - 1) })

/-- A confirm timer that expires with tries left: the ADMIT is sent again (R130). -/
theorem State.confirmVisit_of_retry {n : Nat} (ht : r.confirmTimer = some n) (hn : n ≤ 1)
    (ha : r.admitTries < s.params.admitTriesMax) : s.confirmVisit id = s.put id (retriedRecord r) := by
  rw [State.confirmVisit, State.withRecord_of_record? h, ht]
  refine (if_pos hn).trans ?_
  rw [State.expireConfirm, State.withRecord_of_record? h, if_pos ha, State.update_eq_put hs h]

omit hs

/-- A confirm timer that expires with no try left: a loss (R131). -/
theorem State.confirmVisit_of_last {n : Nat} (ht : r.confirmTimer = some n) (hn : n ≤ 1)
    (ha : s.params.admitTriesMax ≤ r.admitTries) : s.confirmVisit id = s.lose .confirmTimeout id := by
  rw [State.confirmVisit, State.withRecord_of_record? h, ht]
  refine (if_pos hn).trans ?_
  rw [State.expireConfirm, State.withRecord_of_record? h, if_neg (Nat.not_lt.2 ha)]

end

theorem holdOffVisit_eq (now : MarkerCount) (r : Record) (noted : Prop) [Decidable noted] :
    (if noted then r else holdOffVisit now r) =
      if r.state ≠ .lost ∨ noted then r
      else if r.holdOff = 0 then { r with state := .polling, misses := 0, nextEligible := now }
      else { r with holdOff := r.holdOff - 1 } := by
  by_cases hn : noted <;> by_cases hl : r.state = .lost <;> simp [holdOffVisit, hn, hl]

theorem probationVisit_eq (r : Record) : probationVisit r =
    if (r.state = .confirming ∨ r.state = .inService ∨ r.state = .fading) ∧ 0 < r.probation then
      { r with probation := r.probation - 1, backoff := if r.probation = 1 then r.backoff - 1 else r.backoff }
    else r := by
  simp only [probationVisit, TState.committed_iff]

/-! ## The budget stage (R107, R110, R112 to R115) -/

/-- A notice does not read AC. -/
theorem State.notify_withAc (s : State) (ac : Ac) (kind : NoticeKind) (id : Option Nat) (values : List Int) :
    State.notify { s with ac := ac } kind id values = { s.notify kind id values with ac := ac } := by
  simp only [State.notify, State.noticeEnabled]
  split_ifs <;> rfl

/-- STORM_EXPIRED, where the storm in force ends at this marker (R112). -/
def State.stormTold (s : State) : State := match s.ac.storm with
  | some st => if st.remaining ≤ 1 then s.notify .stormExpired none [st.level] else s
  | none => s

theorem State.stormTold_cases (s : State) : s.stormTold = s ∨ ∃ values, s.stormTold = s.notify .stormExpired none values := by
  simp only [State.stormTold]
  split
  · split
    · exact .inr ⟨_, rfl⟩
    · exact .inl rfl
  · exact .inl rfl

/-- The raw level the budget stage finds (R107). -/
def State.rawLevelNow (s : State) : Nat := rawLevelOf s.ac.thresholds (permille s.outageCount s.provisionedCount)

/-- The held level and the hold counter the budget stage leaves (R110). -/
def State.heldNow (s : State) : Nat × Nat :=
  heldAfterMarker s.rawLevelNow s.ac.heldLevel s.ac.holdCounter s.ac.levelHold

/-- AC after the level computation of the budget stage (R115). -/
def State.acLevelled (s : State) : Ac :=
  let storm := stormAfterMarker s.ac.storm
  let level := effectiveLevel s.heldNow.1 storm
  { s.ac with
    banks := s.ac.staged.getD s.ac.banks, staged := none, storm := storm, rawLevel := s.rawLevelNow
    heldLevel := s.heldNow.1, holdCounter := s.heldNow.2, effLevel := level
    bEff := effectiveBudget (s.ac.staged.getD s.ac.banks) s.params level }

theorem State.countStorm_eq (s : State) :
    s.countStorm = { s.stormTold with ac := { s.ac with storm := stormAfterMarker s.ac.storm } } := by
  rcases hs : s.ac.storm with _ | st
  · simp only [State.countStorm, State.stormTold, hs, stormAfterMarker, Option.bind_none]
    rw [← hs]
  · simp only [State.countStorm, State.stormTold, hs, stormAfterMarker, Option.bind_some]
    split
    · rw [State.setStorm, State.notify_withAc]
    · rfl

/-- The storm's notice reads neither the banks nor the staged set. -/
theorem State.stormTold_applyStaged (s : State) :
    s.applyStaged.stormTold = { s.stormTold with ac := s.applyStaged.ac } := by
  rw [State.applyStaged_eq]
  rcases hs : s.ac.storm with _ | st
  · simp only [State.stormTold, hs]
  · simp only [State.stormTold, hs]
    split
    · rw [State.notify_withAc]
    · rfl

theorem State.budgetStage_eq (s : State) : s.budgetStage =
    (let levelled : State := { s.stormTold with ac := s.acLevelled }
     if s.acLevelled.effLevel = s.ac.effLevel then levelled
     else levelled.notify .levelChanged none [s.ac.effLevel, s.acLevelled.effLevel, s.acLevelled.bEff]) := by
  have storm : s.applyStaged.countStorm = { s.stormTold with
      ac := { s.applyStaged.ac with storm := stormAfterMarker s.ac.storm } } := by
    rw [State.countStorm_eq, State.stormTold_applyStaged, State.applyStaged_eq]
  have tables : s.stormTold.tt = s.tt := by
    rcases s.stormTold_cases with h | ⟨values, h⟩ <;> rw [h]
    exact s.notify_tt _ _ _
  have params : s.stormTold.params = s.params := by
    rcases s.stormTold_cases with h | ⟨values, h⟩ <;> rw [h]
    exact s.notify_params _ _ _
  have levelled : s.applyStaged.countStorm.computeRaw.holdLevel.computeBudget = { s.stormTold with ac := s.acLevelled } := by
    rw [storm, State.applyStaged_eq]
    simp only [State.holdLevel, State.computeBudget, State.setHeld, State.computeRaw, State.levelNow, State.outageCount,
      State.provisionedCount, State.countRecords, tables, params]
    rfl
  have before : s.applyStaged.countStorm.computeRaw.holdLevel.ac.effLevel = s.ac.effLevel := by
    rw [storm, State.applyStaged_eq]
    rfl
  have level : s.applyStaged.countStorm.computeRaw.holdLevel.levelNow = s.acLevelled.effLevel :=
    congrArg (fun t : State => t.ac.effLevel) levelled
  have budget : effectiveBudget s.applyStaged.countStorm.computeRaw.holdLevel.ac.banks
      s.applyStaged.countStorm.computeRaw.holdLevel.params s.applyStaged.countStorm.computeRaw.holdLevel.levelNow =
        s.acLevelled.bEff := congrArg (fun t : State => t.ac.bEff) levelled
  rw [State.budgetStage, State.announceBudget, budget, level, before, levelled]

/-- The held level and the hold counter, each on its own (R110). -/
theorem heldAfterMarker_eq (raw held counter levelHold : Nat) : heldAfterMarker raw held counter levelHold =
    (if held ≤ raw then raw else if levelHold ≤ counter + 1 then held - 1 else held,
     if held ≤ raw ∨ levelHold ≤ counter + 1 then 0 else counter + 1) := by
  by_cases rises : held ≤ raw <;> by_cases ends : levelHold ≤ counter + 1 <;> simp [heldAfterMarker, rises, ends]

theorem effectiveLevel_eq_max (held : Nat) (storm : Option Storm) :
    effectiveLevel held storm = max held ((storm.map (·.level)).getD 0) := by
  cases storm <;> simp [effectiveLevel]

/-- Settles O48: the stages over the records by the visits of one record, the budget stage by its figures. -/
theorem markerStagesOneByOne : Obligations.MarkerStagesOneByOne := by
  intro s rank hs onEach resolve expire n o raw held counter storm level bEff stormTold levelled
  have resolved (u : State) (id : Nat) (hu : s.EngineOnly u) : resolve u id = u.resolveCancel id := by
    have sound := hu.recordsSound hs
    rcases h : u.record? id with _ | r
    · rw [State.resolveCancel, State.withRecord_vacant h]
      simp only [resolve, h]
    simp only [resolve, h, ← cancellable_iff]
    by_cases hc : r.cancelReq = true
    · by_cases hst : cancellable r.state = true
      · rw [if_pos hc, if_pos hst, State.resolveCancel_of_cancellable sound h hc hst]
        rfl
      · rw [if_pos hc, if_neg hst, State.resolveCancel_of_not_cancellable sound h hc (by simpa using hst)]
        split_ifs <;> rfl
    · rw [if_neg hc, State.resolveCancel_of_not h (by simpa using hc)]
  have expired (u : State) (id : Nat) (hu : s.EngineOnly u) : expire u id = u.confirmVisit id := by
    have sound := hu.recordsSound hs
    rcases h : u.record? id with _ | r
    · rw [State.confirmVisit, State.withRecord_vacant h]
      simp only [expire, h]
    rcases ht : r.confirmTimer with _ | n
    · rw [State.confirmVisit_of_none h ht]
      simp only [expire, h, ht]
    simp only [expire, h, ht]
    split_ifs with hn ha
    · rw [State.confirmVisit_of_running sound h ht hn]
    · rw [State.confirmVisit_of_retry sound h ht (by omega) ha]
      rfl
    · rw [State.confirmVisit_of_last h ht (by omega) (by omega)]
  refine ⟨⟨sortBy (fun a b => rank a < rank b) s.ids, sortBy_perm _ _, sortBy_ranked rank s.ids, ?_⟩, ?_, ?_, ?_, ?_, rfl,
    rfl⟩
  · exact (foldl_congr_kept (fun u id hu => hu.trans (u.engineOnly_resolveCancel id)) resolved _ (.rfl' s)).symm
  · exact congrArg s.updateAll (funext fun id => funext fun r => holdOffVisit_eq s.si.markerCount r (id ∈ s.ot.lostNow))
  · exact congrArg s.updateAll (funext fun _ => funext probationVisit_eq)
  · exact (foldl_congr_kept (fun u id hu => hu.trans (u.engineOnly_confirmVisit id)) expired _ (.rfl' s)).symm
  · have rawLevel : s.rawLevelNow = raw := s.rawLevel_eq
    have heldPair : s.heldNow = (held, counter) := by rw [State.heldNow, rawLevel, heldAfterMarker_eq]
    have effLevel : s.acLevelled.effLevel = level := by
      rw [State.acLevelled, heldPair]
      exact effectiveLevel_eq_max held storm
    have budget : s.acLevelled.bEff = bEff := by
      rw [← show effectiveBudget (s.ac.staged.getD s.ac.banks) s.params level = bEff from rfl, ← effLevel]
      rfl
    have figures : ({ s.stormTold with ac := s.acLevelled } : State) = levelled := by
      have ac : s.acLevelled = { s.acLevelled with effLevel := level, bEff := bEff } := by rw [← effLevel, ← budget]
      rw [ac, State.acLevelled, heldPair, rawLevel]
      rfl
    rw [runStage, State.budgetStage_eq, figures, effLevel, budget]

end Sys2Proof.Machine
end

section
/-! The wait list along a marker (R124): each operation on records keeps it in priority order and its terminals waiting, and
leaves what a marker has queued and noted. -/

namespace Sys2Proof.Machine

open Sys2Proof

/-! ## What a marker adds to -/

/-- `t` differs from `s` by operations on records: the Notice Queue and AC's note of shed terminals have grown at their
ends. -/
structure State.Grows (s t : State) : Prop where
  engine : s.EngineOnly t
  notices : s.mu.notices <+: t.mu.notices
  shedNote : s.ac.shedNote <+: t.ac.shedNote

theorem State.Grows.trans {s t u : State} (h₁ : s.Grows t) (h₂ : t.Grows u) : s.Grows u :=
  ⟨h₁.engine.trans h₂.engine, h₁.notices.trans h₂.notices, h₁.shedNote.trans h₂.shedNote⟩

/-- An operation that reaches neither the notices nor AC's note. -/
theorem State.Grows.of_eq {s t : State} (h : s.EngineOnly t) (notices : t.mu.notices = s.mu.notices)
    (shedNote : t.ac.shedNote = s.ac.shedNote) : s.Grows t :=
  ⟨h, notices ▸ List.prefix_refl _, shedNote ▸ List.prefix_refl _⟩

theorem State.notify_notices_prefix (s : State) (kind : NoticeKind) (id : Option Nat) (values : List Int) :
    s.mu.notices <+: (s.notify kind id values).mu.notices := by
  simp only [State.notify]
  split_ifs
  · exact List.prefix_refl _
  · exact List.prefix_refl _
  · exact List.prefix_append _ _

theorem State.grows_notify (s : State) (kind : NoticeKind) (id : Option Nat) (values : List Int) :
    s.Grows (s.notify kind id values) :=
  ⟨s.engineOnly_notify kind id values, s.notify_notices_prefix kind id values, by rw [State.notify_ac]⟩

theorem engineClosed_grows : EngineClosed State.Grows where
  refl s := .of_eq (.rfl' s) rfl rfl
  trans := State.Grows.trans
  notify := State.grows_notify
  setSum s sum := .of_eq (s.engineOnly_setSum sum) rfl rfl
  setWaitList s l := .of_eq (s.engineOnly_setWaitList l) rfl rfl
  noteShed s id := ⟨s.engineOnly_noteShed id, List.prefix_refl _, List.prefix_append _ _⟩
  noteLost s id := .of_eq (s.engineOnly_noteLost id) rfl rfl
  update s id f := .of_eq (s.engineOnly_update id f) rfl rfl
  updateAll s f := .of_eq (s.engineOnly_updateAll f) rfl rfl

theorem State.grows_budgetStage (s : State) : s.Grows s.budgetStage := by
  have storm : s.mu.notices <+: s.stormTold.mu.notices := by
    rcases s.stormTold_cases with h | ⟨values, h⟩ <;> rw [h]
    exact s.notify_notices_prefix _ _ _
  refine ⟨s.engineOnly_budgetStage, ?_, ?_⟩
  · rw [State.budgetStage_eq]
    dsimp only
    split
    · exact storm
    · exact storm.trans (State.notify_notices_prefix { s.stormTold with ac := s.acLevelled } _ _ _)
  · rw [State.budgetStage_eq]
    dsimp only
    split
    · exact List.prefix_refl _
    · rw [State.notify_ac]
      exact List.prefix_refl _

theorem State.budgetStage_ot (s : State) : s.budgetStage.ot = s.ot := by
  have storm : s.stormTold.ot = s.ot := by
    rcases s.stormTold_cases with h | ⟨values, h⟩ <;> rw [h]
    exact s.notify_ot _ _ _
  rw [State.budgetStage_eq]
  dsimp only
  split
  · exact storm
  · rw [State.notify_ot]
    exact storm

theorem State.budgetStage_waitList (s : State) : s.budgetStage.ac.waitList = s.ac.waitList := by
  rw [State.budgetStage_eq]
  dsimp only
  split
  · rfl
  · rw [State.notify_ac]
    rfl

/-! ## Classes and the order -/

/-- What keeps each record's class keeps the priority order. -/
theorem State.outranks_of_identity {s t : State}
    (h : ∀ id, (t.record? id).map Record.identity = (s.record? id).map Record.identity) : t.outranks = s.outranks :=
  State.outranks_congr fun id => by
    have := congrArg (Option.map fun i : Address × Cls × Nat × Nat × Nat × Int × Int => i.2.1) (h id)
    rwa [Option.map_map, Option.map_map] at this

section
variable {s : State} {a b : Nat} {ra rb : Record} (ha : s.record? a = some ra) (hb : s.record? b = some rb)
include ha hb

theorem State.outranks_iff : s.outranks a b = true ↔
    ra.cls.code < rb.cls.code ∨ (ra.cls.code = rb.cls.code ∧ a < b) := by
  simp only [State.outranks, precedes_iff, State.priorityKey, ha, hb, Option.map_some, Option.getD_some]

theorem State.cls_le_of_outranks (h : s.outranks a b = true) : ra.cls.code ≤ rb.cls.code := by
  rcases (State.outranks_iff ha hb).1 h with h | ⟨h, _⟩ <;> omega

end

/-! ## Single operations -/

theorem State.lose_ot (s : State) (reason : LossReason) (id : Nat) : (s.lose reason id).ot = s.ot := by
  rcases hr : s.record? id with _ | r
  · rw [State.lose, State.withRecord_vacant hr]
  · rw [State.lose, State.withRecord_of_record? hr]
    simp only [State.notifyHoldGranted]
    split_ifs <;> simp only [State.notify_ot, State.update_ot, State.leaveWaitList_ot, State.setSum_ot]

section
variable {s : State} {id : Nat} {r : Record} (hs : s.recordsSound) (h : s.record? id = some r)
include hs h

theorem State.shedTerminal_ot (noted : Bool) : (s.shedTerminal noted id).ot = s.ot := by
  rw [State.shedTerminal_of_record hs h]
  exact State.notify_ot _ _ _ _

theorem State.shedTerminal_shedNote : (s.shedTerminal true id).ac.shedNote = s.ac.shedNote ++ [id] := by
  rw [State.shedTerminal_of_record hs h]
  simp only [if_true, State.notify_ac, State.put_ac]

theorem State.record?_shedTerminal (noted : Bool) :
    (s.shedTerminal noted id).record? id = some (shedRecord s.si.markerCount r) := by
  rw [State.shedTerminal_of_record hs h]
  refine (State.record?_congr (s := State.put s id (shedRecord s.si.markerCount r)) ?_ id).trans
    (State.record?_put_self h _)
  exact congrArg Tt.records (State.notify_tt _ _ _ _)

theorem State.record?_shedTerminal_of_ne {k : Nat} (hk : k ≠ id) (noted : Bool) :
    (s.shedTerminal noted id).record? k = s.record? k := by
  rw [State.shedTerminal_of_record hs h]
  refine (State.record?_congr (s := State.put s id (shedRecord s.si.markerCount r)) ?_ k).trans
    (State.record?_put_of_ne hk s _)
  exact congrArg Tt.records (State.notify_tt _ _ _ _)

theorem State.shedTerminal_waitList (noted : Bool) :
    (s.shedTerminal noted id).ac.waitList = insertBy s.outranks id s.ac.waitList := by
  have order := State.outranks_of_identity (markerClosed_identity.shedTerminal s noted id)
  rw [State.shedTerminal_of_record hs h] at order ⊢
  dsimp only
  rw [State.notify_ac]
  exact congrArg (insertBy · id s.ac.waitList) order

/-- The admission of a terminal: its place on the wait list, the sum, its record and the notice (R134). -/
theorem State.admitTerminal_of_record (cost : Nat) : s.admitTerminal id cost =
    State.notify (State.put { s with ac := { s.ac with
      waitList := s.ac.waitList.filter (· ≠ id), committedSum := s.ac.committedSum + cost } } id (admittedRecord cost r))
      .terminalAdmitted (some id) [r.profile, cost] := by
  have put := State.update_eq_put (s := s.leaveWaitList id) hs h (admittedRecord cost)
  rw [State.admitTerminal, State.withRecord_of_record? h]
  exact congrArg (fun t : State => (t.setSum (s.ac.committedSum + cost)).notify .terminalAdmitted (some id)
    [r.profile, cost]) put

theorem State.admitTerminal_ot (cost : Nat) : (s.admitTerminal id cost).ot = s.ot := by
  rw [State.admitTerminal_of_record hs h]
  exact State.notify_ot _ _ _ _

theorem State.admitTerminal_waitList (cost : Nat) :
    (s.admitTerminal id cost).ac.waitList = s.ac.waitList.filter (· ≠ id) := by
  rw [State.admitTerminal_of_record hs h, State.notify_ac]
  rfl

theorem State.record?_admitTerminal (cost : Nat) :
    (s.admitTerminal id cost).record? id = some (admittedRecord cost r) := by
  rw [State.admitTerminal_of_record hs h, State.record?_notify]
  exact State.record?_put_self (s := { s with ac := _ }) h _

theorem State.record?_admitTerminal_of_ne {k : Nat} (hk : k ≠ id) (cost : Nat) :
    (s.admitTerminal id cost).record? k = s.record? k := by
  rw [State.admitTerminal_of_record hs h, State.record?_notify, State.record?_put_of_ne hk]
  rfl

end

/-! ## The law of the wait list (R124) -/

/-- The wait list stands in priority order, and its terminals wait. -/
structure State.WaitSound (s : State) : Prop where
  records : s.recordsSound
  ordered : s.ac.waitList.Pairwise fun a b => s.outranks a b = true
  waiters : s.waitersWait

theorem State.waitSound_of_sound {s : State} (hs : s.recordsSound) (h : s.waitListSound) : s.WaitSound := by
  obtain ⟨ordered, waiting, -⟩ := h
  refine ⟨hs, ordered, fun id hid => ?_⟩
  have := waiting id hid
  rwa [State.stateOf, Option.map_map, Option.map_eq_some_iff] at this

/-- In RUN no sector reset suspends the accounts, so the law of the account holds the wait list sound. -/
theorem State.waitSound_of_ledgerSound {s : State} (h : s.ledgerSound) (hm : s.si.mode = .run) : s.WaitSound := by
  obtain ⟨records, accounts, -, flight⟩ := h
  refine State.waitSound_of_sound records (accounts ?_).2
  unfold State.accountsSuspended
  split
  · next tag step hf =>
    simp only [State.inFlightSound, hf, hm] at flight
    exact absurd flight.2.1 (by decide)
  · rfl

namespace State.WaitSound

variable {s t : State} {id : Nat} {r : Record}

/-- The law reads the records and the wait list alone. -/
theorem congr (h : s.WaitSound) (records : t.tt.records = s.tt.records) (list : t.ac.waitList = s.ac.waitList) :
    t.WaitSound := by
  have same := State.record?_congr (s := s) (t := t) records
  have order : t.outranks = s.outranks := State.outranks_congr fun id => by rw [same]
  refine ⟨(State.recordsSound_congr (by simp only [State.ids, records])).2 h.records, ?_, ?_⟩
  · rw [list, order]
    exact h.ordered
  · simpa only [State.waitersWait, list, same] using h.waiters

theorem notify (h : s.WaitSound) (kind : NoticeKind) (of : Option Nat) (values : List Int) :
    (s.notify kind of values).WaitSound := h.congr (by rw [State.notify_tt]) (by rw [State.notify_ac])

theorem not_listed (h : s.WaitSound) (hr : s.record? id = some r) (hw : r.state.waiting = false) :
    id ∉ s.ac.waitList := fun hm => by
  obtain ⟨q, hq, waits⟩ := h.waiters id hm
  rw [hr] at hq
  cases hq
  rw [hw] at waits
  cases waits

/-- A wait list that is part of a sound one. -/
theorem sublist (h : s.WaitSound) (records : t.tt.records = s.tt.records) (list : t.ac.waitList.Sublist s.ac.waitList) :
    t.WaitSound := by
  have shorter : (s.setWaitList t.ac.waitList).WaitSound :=
    ⟨h.records, h.ordered.sublist list, fun k hk => h.waiters k (list.subset hk)⟩
  exact shorter.congr records rfl

/-- A record replaced by one of its class, which waits still where it is listed. -/
theorem put (h : s.WaitSound) (hr : s.record? id = some r) {q : Record} (cls : q.cls = r.cls)
    (waits : id ∈ s.ac.waitList → q.state.waiting = true) : (s.put id q).WaitSound := by
  have order : (s.put id q).outranks = s.outranks := State.outranks_congr fun k => by
    by_cases hk : k = id
    · rw [hk, State.record?_put_self hr, hr, Option.map_some, Option.map_some, cls]
    · rw [State.record?_put_of_ne hk]
  refine ⟨s.recordsSound_put h.records id q, ?_, fun k hk => ?_⟩
  · rw [order]
    exact h.ordered
  · by_cases hid : k = id
    · subst hid
      exact ⟨q, State.record?_put_self hr q, waits hk⟩
    · rw [State.record?_put_of_ne hid]
      exact h.waiters k hk

/-- A change of every record that keeps its class and its waiting. -/
theorem updateAll (h : s.WaitSound) {f : Nat → Record → Record} (change : ∀ id, MarkerChange (f id))
    (waits : ∀ id r, r.state.waiting = true → (f id r).state.waiting = true) : (s.updateAll f).WaitSound := by
  have order := State.outranks_of_identity (markerClosed_identity.updateAll s change)
  refine ⟨(State.recordsSound_congr (s.ids_updateAll f)).2 h.records, ?_, fun k hk => ?_⟩
  · rw [order]
    exact h.ordered
  · obtain ⟨r, hr, hw⟩ := h.waiters k hk
    exact ⟨f k r, by rw [State.record?_updateAll, hr]; rfl, waits k r hw⟩

/-- A lost terminal waits no more (R59). -/
theorem lose (h : s.WaitSound) (reason : LossReason) (id : Nat) : (s.lose reason id).WaitSound := by
  rcases hr : s.record? id with _ | r
  · rwa [State.lose, State.withRecord_vacant hr]
  · have shorter : (s.accountsLeft id r).ac.waitList.Sublist s.ac.waitList := by
      simp only [State.accountsLeft]
      split
      · exact List.filter_sublist
      · exact List.Sublist.refl _
    have gone : id ∉ (s.accountsLeft id r).ac.waitList := by
      simp only [State.accountsLeft]
      split
      · simp
      · next hw => exact h.not_listed hr (by simpa using hw)
    have lost := (h.sublist (t := s.accountsLeft id r) rfl shorter).put hr
      (q := lostRecord s.params.holdOffBase s.si.markerCount reason r) rfl fun hm => absurd hm gone
    rw [State.lose_of_record h.records hr]
    dsimp only
    split
    · exact (lost.notify _ _ _).notify _ _ _
    · exact lost.notify _ _ _

/-- A victim joins the wait list at its place (R127). -/
theorem shedTerminal (h : s.WaitSound) (hr : s.record? id = some r) (hc : r.state.committed = true) (noted : Bool) :
    (s.shedTerminal noted id).WaitSound := by
  have order := State.outranks_of_identity (markerClosed_identity.shedTerminal s noted id)
  have list := State.shedTerminal_waitList h.records hr noted
  have absent : id ∉ s.ac.waitList := h.not_listed hr (by
    cases hst : r.state <;> simp_all [TState.committed, TState.waiting])
  refine ⟨(s.engineOnly_shedTerminal noted id).recordsSound h.records, ?_, fun k hk => ?_⟩
  · rw [order, list]
    exact s.insertBy_ordered absent h.ordered
  · by_cases hid : k = id
    · subst hid
      exact ⟨_, State.record?_shedTerminal h.records hr noted, rfl⟩
    · rw [State.record?_shedTerminal_of_ne h.records hr hid]
      rw [list, mem_insertBy] at hk
      exact h.waiters k (hk.resolve_left hid)

/-- An admitted terminal has left the wait list (R134). -/
theorem admitTerminal (h : s.WaitSound) (hr : s.record? id = some r) (cost : Nat) : (s.admitTerminal id cost).WaitSound := by
  rw [State.admitTerminal_of_record h.records hr]
  have left : State.WaitSound { s with ac := { s.ac with
      waitList := s.ac.waitList.filter (· ≠ id), committedSum := s.ac.committedSum + cost } } :=
    h.sublist rfl List.filter_sublist
  exact (left.put hr (q := admittedRecord cost r) rfl fun hm => absurd hm (by simp)).notify _ _ _

/-- Cancel resolution of one record (R70). -/
theorem resolveCancel (h : s.WaitSound) (id : Nat) : (s.resolveCancel id).WaitSound := by
  rcases hr : s.record? id with _ | r
  · rwa [State.resolveCancel, State.withRecord_vacant hr]
  by_cases hc : r.cancelReq = true
  · have cleared : (s.put id { r with cancelReq := false }).WaitSound := h.put hr rfl fun hm => by
      obtain ⟨q, hq, waits⟩ := h.waiters id hm
      rw [hr] at hq
      cases hq
      exact waits
    rw [State.resolveCancel_of_set h.records hr hc]
    refine State.WaitSound.notify ?_ _ _ _
    split
    · exact (cleared.lose .cancelled id).congr rfl rfl
    · exact cleared
  · rwa [State.resolveCancel_of_not hr (by simpa using hc)]

/-- The visit of one confirm timer (R130, R131). -/
theorem confirmVisit (h : s.WaitSound) (id : Nat) : (s.confirmVisit id).WaitSound := by
  rcases hr : s.record? id with _ | r
  · rwa [State.confirmVisit, State.withRecord_vacant hr]
  rcases ht : r.confirmTimer with _ | n
  · rwa [State.confirmVisit_of_none hr ht]
  have waits : id ∈ s.ac.waitList → r.state.waiting = true := fun hm => by
    obtain ⟨q, hq, waits⟩ := h.waiters id hm
    rw [hr] at hq
    cases hq
    exact waits
  by_cases hn : 1 < n
  · rw [State.confirmVisit_of_running h.records hr ht hn]
    exact h.put hr rfl waits
  by_cases ha : r.admitTries < s.params.admitTriesMax
  · rw [State.confirmVisit_of_retry h.records hr ht (by omega) ha]
    exact h.put hr rfl waits
  · rw [State.confirmVisit_of_last hr ht (by omega) (by omega)]
    exact h.lose _ _

end State.WaitSound

end Sys2Proof.Machine
end

section
/-! One record along a marker (R64, R129): what each stage makes of it, whatever happens to the other records. A `RecordView` is
the record with the notes a marker operation keeps of it and the answer its cancel request was given; the stages of the model are
followed on views, so that the orders of the stages (log 1) are compared on one record. -/

namespace Sys2Proof.Machine

open Sys2Proof

/-! ## Views of one record -/

/-- A record during a marker operation: whether cancel resolution has noted it as lost (R64), whether AC has noted it as shed
(R135), and the answer REENTRY_CANCELLED gave to its cancel request, with the state it names (R70). -/
structure RecordView where
  record : Record
  lostNow : Bool
  shedNow : Bool
  answer : Option (Int × TState)

/-- A record after the visit of its confirm timer (R130, R131). -/
def confirmVisited (p : Params) (now : MarkerCount) (r : Record) : Record :=
  match r.confirmTimer with
  | none => r
  | some n =>
    if 1 < n then { r with confirmTimer := some (n - 1) }
    else if r.admitTries < p.admitTriesMax then retriedRecord r
    else lostRecord p.holdOffBase now .confirmTimeout r

namespace RecordView

/-- A record before any stage. -/
def start (r : Record) : RecordView := { record := r, lostNow := false, shedNow := false, answer := none }

/-- Cancel resolution of the record (R70). -/
def cancelled (base : Nat) (now : MarkerCount) (v : RecordView) : RecordView :=
  if v.record.cancelReq then
    let cleared : Record := { v.record with cancelReq := false }
    { v with
      record := if cancellable v.record.state then lostRecord base now .cancelled cleared else cleared
      lostNow := v.lostNow || cancellable v.record.state
      answer := some (if cancelTooLate v.record.state then 1 else 0, v.record.state) }
  else v

/-- The hold-off stage on the record (R65). -/
def heldOff (now : MarkerCount) (v : RecordView) : RecordView :=
  { v with record := if v.lostNow then v.record else holdOffVisit now v.record }

/-- The probation stage on the record (R66). -/
def onProbation (v : RecordView) : RecordView := { v with record := probationVisit v.record }

/-- The confirm timer stage on the record (R130, R131). -/
def timed (p : Params) (now : MarkerCount) (v : RecordView) : RecordView :=
  { v with record := confirmVisited p now v.record }

/-- The record shed by a marker operation (R127, R135). -/
def shed (now : MarkerCount) (v : RecordView) : RecordView :=
  { v with record := shedRecord now v.record, shedNow := true }

/-- The record admitted at a cost (R134). -/
def admitted (cost : Nat) (v : RecordView) : RecordView := { v with record := admittedRecord cost v.record }

/-- What sheds in a marker operation can make of one record: nothing, or the shed of a committed one. -/
def MayShed (now : MarkerCount) (v w : RecordView) : Prop :=
  w = v ∨ (v.record.state.committed = true ∧ w = v.shed now)

/-- What the admission pass can make of one record: what sheds can, or the admission of a waiting one that this operation has
not shed. -/
def MayAdmit (now : MarkerCount) (v w : RecordView) : Prop :=
  v.MayShed now w ∨ (v.record.state.waiting = true ∧ v.shedNow = false ∧ ∃ cost, w = v.admitted cost)

/-- A record that has been shed is not shed again. -/
theorem MayShed.trans {now : MarkerCount} {u v w : RecordView} (h₁ : u.MayShed now v) (h₂ : v.MayShed now w) :
    u.MayShed now w := by
  rcases h₁ with rfl | ⟨hc, rfl⟩
  · exact h₂
  · rcases h₂ with rfl | ⟨hc', -⟩
    · exact .inr ⟨hc, rfl⟩
    · cases hc'

/-- A record that has been shed is not admitted in the same operation. -/
theorem MayShed.then_mayAdmit {now : MarkerCount} {u v w : RecordView} (h₁ : u.MayShed now v) (h₂ : v.MayAdmit now w) :
    u.MayAdmit now w := by
  rcases h₁ with rfl | ⟨hc, rfl⟩
  · exact h₂
  · rcases h₂ with h₂ | ⟨-, hn, -⟩
    · exact .inl (MayShed.trans (.inr ⟨hc, rfl⟩) h₂)
    · cases hn

end RecordView

/-! ## States that show a view -/

/-- REENTRY_CANCELLED for a terminal is in the Notice Queue with a frame number and these values, unless it is masked or the
queue is full (R70, R177). -/
def State.cancelTold (s : State) (frame : FrameNumber) (id : Nat) (late : Int) (st : TState) : Prop :=
  s.mu.mask[9]? ≠ some false → 64 ≤ s.mu.notices.length ∨ ∃ x ∈ s.mu.notices, x.kind = .reentryCancelled ∧ x.frame = frame ∧
    x.id = some id ∧ x.values = [late, (st.code : Int)]

theorem State.cancelTold_of_grows {s t : State} (g : s.Grows t) {frame : FrameNumber} {id : Nat} {late : Int} {st : TState}
    (h : s.cancelTold frame id late st) : t.cancelTold frame id late st := fun hm => by
  rcases h (g.engine.mask ▸ hm) with full | ⟨x, hx, told⟩
  · exact .inl (full.trans g.notices.length_le)
  · exact .inr ⟨x, g.notices.subset hx, told⟩

/-- Queuing REENTRY_CANCELLED tells it. -/
theorem State.cancelTold_notify (s : State) (id : Nat) (late : Int) (st : TState) :
    (s.notify .reentryCancelled (some id) [late, st.code]).cancelTold s.si.frameNumber id late st := fun hm => by
  rw [State.notify_mask] at hm
  have enabled : s.noticeEnabled .reentryCancelled ≠ false := by
    simp only [State.noticeEnabled, List.getD_eq_getElem?_getD]
    change s.mu.mask[9]?.getD true ≠ false
    rcases hb : s.mu.mask[9]? with _ | _ | _ <;> simp_all
  rw [State.notify, if_neg enabled]
  split
  · next full => exact .inl full
  · exact .inr ⟨_, List.mem_append_right _ List.mem_cons_self, rfl, rfl, rfl, rfl⟩

/-- A state in which the record of an ID is as a view has it, in a marker operation with these parameters, marker count and
frame number. -/
structure State.Shows (p : Params) (now : MarkerCount) (frame : FrameNumber) (id : Nat) (v : RecordView) (s : State) :
    Prop where
  waiting : s.WaitSound
  params : s.params = p
  markerCount : s.si.markerCount = now
  frameNumber : s.si.frameNumber = frame
  record : s.record? id = some v.record
  lostNow : id ∈ s.ot.lostNow ↔ v.lostNow = true
  shedNow : v.shedNow = true → id ∈ s.ac.shedNote
  answer : ∀ a, v.answer = some a → s.cancelTold frame id a.1 a.2

namespace State.Shows

variable {p : Params} {now : MarkerCount} {frame : FrameNumber} {id : Nat} {v : RecordView} {s t : State}

theorem records (h : s.Shows p now frame id v) : s.recordsSound := h.waiting.records

/-- An operation that changes the record and notes nothing new. -/
theorem changed (h : s.Shows p now frame id v) (g : s.Grows t) (waiting : t.WaitSound) {q : Record}
    (record : t.record? id = some q) (ot : id ∈ t.ot.lostNow ↔ id ∈ s.ot.lostNow) :
    t.Shows p now frame id { v with record := q } where
  waiting := waiting
  params := g.engine.params.trans h.params
  markerCount := g.engine.markerCount.trans h.markerCount
  frameNumber := g.engine.frameNumber.trans h.frameNumber
  record := record
  lostNow := ot.trans h.lostNow
  shedNow hn := g.shedNote.subset (h.shedNow hn)
  answer a ha := State.cancelTold_of_grows g (h.answer a ha)

/-- An operation on other records. -/
theorem beside (h : s.Shows p now frame id v) (g : s.Grows t) (waiting : t.WaitSound)
    (record : t.record? id = s.record? id) (ot : id ∈ t.ot.lostNow ↔ id ∈ s.ot.lostNow) : t.Shows p now frame id v :=
  h.changed g waiting (record.trans h.record) ot

theorem eq_of_record? (h : s.Shows p now frame id v) {r : Record} (hr : s.record? id = some r) : r = v.record :=
  Option.some.inj (hr.symm.trans h.record)

/-! ### OT's stages -/

theorem resolveCancel_other (h : s.Shows p now frame id v) {k : Nat} (hk : k ≠ id) :
    (s.resolveCancel k).Shows p now frame id v := by
  have g := engineClosed_grows.marker.resolveCancel s k
  have waiting := h.waiting.resolveCancel k
  rcases hr : s.record? k with _ | r
  · rwa [State.resolveCancel, State.withRecord_vacant hr]
  by_cases hc : r.cancelReq = true
  · rw [State.resolveCancel_of_set h.records hr hc] at g waiting ⊢
    refine h.beside g waiting ?_ ?_
    · rw [State.record?_notify]
      split
      · exact (State.record?_lose_of_ne hk.symm (s.recordsSound_put h.records _ _) _).trans
          (State.record?_put_of_ne hk.symm _ _)
      · exact State.record?_put_of_ne hk.symm _ _
    · rw [State.notify_ot]
      split
      · simp [State.lose_ot, Ne.symm hk]
      · rfl
  · rwa [State.resolveCancel_of_not hr (by simpa using hc)]

theorem resolveCancel_self (h : s.Shows p now frame id v) :
    (s.resolveCancel id).Shows p now frame id (v.cancelled p.holdOffBase now) := by
  by_cases hc : v.record.cancelReq = true
  · have told := State.resolveCancel_of_set h.records h.record hc
    have g := engineClosed_grows.marker.resolveCancel s id
    have waiting := h.waiting.resolveCancel id
    rw [RecordView.cancelled, if_pos hc]
    rw [told] at g waiting ⊢
    refine ⟨waiting, g.engine.params.trans h.params, g.engine.markerCount.trans h.markerCount,
      g.engine.frameNumber.trans h.frameNumber, ?_, ?_, fun hn => g.shedNote.subset (h.shedNow hn), ?_⟩
    · rw [State.record?_notify]
      split
      · refine (State.record?_lose _ _ _).trans ?_
        rw [State.record?_put_self h.record, ← h.params, ← h.markerCount]
        rfl
      · exact State.record?_put_self h.record _
    · rw [State.notify_ot]
      split
      · next hst => simp [hst]
      · next hst => simpa [hst] using h.lostNow
    · rintro a ⟨⟩
      dsimp only
      have frameNumber := (State.notify_frameNumber _ _ _ _).symm.trans (g.engine.frameNumber.trans h.frameNumber)
      rw [← frameNumber]
      split_ifs <;> exact State.cancelTold_notify _ _ _ _
  · rw [RecordView.cancelled, if_neg hc, State.resolveCancel_of_not h.record (by simpa using hc)]
    exact h

/-- A stage that visits the records one after another reaches a record once. -/
theorem visits {op : State → Nat → State} {w : RecordView}
    (other : ∀ {v : RecordView} {s : State} {k : Nat}, s.Shows p now frame id v → k ≠ id → (op s k).Shows p now frame id v)
    (own : ∀ {s : State}, s.Shows p now frame id v → (op s id).Shows p now frame id w) (h : s.Shows p now frame id v)
    {l : List Nat} (perm : l.Perm s.ids) : (l.foldl op s).Shows p now frame id w := by
  have others {v : RecordView} {l : List Nat} (hn : id ∉ l) {s : State} (h : s.Shows p now frame id v) :
      (l.foldl op s).Shows p now frame id v := by
    induction l generalizing s with
    | nil => exact h
    | cons k l ih =>
      rw [List.mem_cons, not_or] at hn
      exact ih hn.2 (other h (Ne.symm hn.1))
  have listed : id ∈ l := perm.mem_iff.2 (List.mem_map.2 ⟨(id, v.record), State.record?_mem h.record, rfl⟩)
  obtain ⟨before, later, split⟩ := List.append_of_mem listed
  have once : (before ++ id :: later).Nodup := split ▸ perm.nodup_iff.2 (State.ids_nodup h.records)
  obtain ⟨_, tail, apart⟩ := List.nodup_append.1 once
  rw [split, List.foldl_append, List.foldl_cons]
  exact others (List.nodup_cons.1 tail).1 (own (others (fun hb => apart id hb id List.mem_cons_self rfl) h))

theorem cancelStage (h : s.Shows p now frame id v) (rank : Nat → Nat) :
    (s.cancelStage rank).Shows p now frame id (v.cancelled p.holdOffBase now) :=
  visits (fun h hk => h.resolveCancel_other hk) resolveCancel_self h (sortBy_perm _ _)

theorem holdOffStage (h : s.Shows p now frame id v) : s.holdOffStage.Shows p now frame id (v.heldOff now) := by
  have waiting : s.holdOffStage.WaitSound := h.waiting.updateAll (fun k => by
    split
    · exact ⟨fun _ => rfl, fun _ hc => hc, fun _ hn => hn⟩
    · exact markerChange_holdOffVisit _) fun k r hw => by
      simp only [holdOffVisit]
      split_ifs <;> simp_all [TState.waiting]
  refine h.changed (engineClosed_grows.updateAll s _) waiting ?_ Iff.rfl
  rw [State.record?_updateAll, h.record, h.markerCount, Option.map_some]
  by_cases noted : id ∈ s.ot.lostNow
  · rw [if_pos noted, if_pos (h.lostNow.1 noted)]
  · rw [if_neg noted, if_neg (mt h.lostNow.2 noted)]

theorem probationStage (h : s.Shows p now frame id v) : s.probationStage.Shows p now frame id v.onProbation := by
  have waiting : s.probationStage.WaitSound := h.waiting.updateAll (fun _ => markerChange_probationVisit) fun _ r hw => by
    simp only [probationVisit]
    split
    · exact hw
    · exact hw
  refine h.changed (engineClosed_grows.updateAll s _) waiting ?_ Iff.rfl
  rw [State.record?_updateAll, h.record]
  rfl

/-! ### Confirm timers and the budget -/

theorem confirmVisit_other (h : s.Shows p now frame id v) {k : Nat} (hk : k ≠ id) :
    (s.confirmVisit k).Shows p now frame id v := by
  have g := engineClosed_grows.marker.confirmVisit s k
  have waiting := h.waiting.confirmVisit k
  rcases hr : s.record? k with _ | r
  · rwa [State.confirmVisit, State.withRecord_vacant hr]
  rcases ht : r.confirmTimer with _ | n
  · rwa [State.confirmVisit_of_none hr ht]
  by_cases hn : 1 < n
  · rw [State.confirmVisit_of_running h.records hr ht hn] at g waiting ⊢
    exact h.beside g waiting (State.record?_put_of_ne hk.symm _ _) Iff.rfl
  by_cases ha : r.admitTries < s.params.admitTriesMax
  · rw [State.confirmVisit_of_retry h.records hr ht (by omega) ha] at g waiting ⊢
    exact h.beside g waiting (State.record?_put_of_ne hk.symm _ _) Iff.rfl
  · rw [State.confirmVisit_of_last hr ht (by omega) (by omega)] at g waiting ⊢
    exact h.beside g waiting (State.record?_lose_of_ne hk.symm h.records _) (by rw [State.lose_ot])

theorem confirmVisit_self (h : s.Shows p now frame id v) : (s.confirmVisit id).Shows p now frame id (v.timed p now) := by
  have g := engineClosed_grows.marker.confirmVisit s id
  have waiting := h.waiting.confirmVisit id
  rcases ht : v.record.confirmTimer with _ | n
  · simp only [RecordView.timed, confirmVisited, ht]
    rwa [State.confirmVisit_of_none h.record ht]
  simp only [RecordView.timed, confirmVisited, ht]
  split_ifs with hn ha
  · rw [State.confirmVisit_of_running h.records h.record ht hn] at g waiting ⊢
    exact h.changed g waiting (State.record?_put_self h.record _) Iff.rfl
  · rw [State.confirmVisit_of_retry h.records h.record ht (by omega) (h.params ▸ ha)] at g waiting ⊢
    exact h.changed g waiting (State.record?_put_self h.record _) Iff.rfl
  · rw [State.confirmVisit_of_last h.record ht (by omega) (by rw [h.params]; omega)] at g waiting ⊢
    refine h.changed g waiting ?_ (by rw [State.lose_ot])
    rw [State.record?_lose, h.record, h.params, h.markerCount]
    rfl

theorem confirmStage (h : s.Shows p now frame id v) : s.confirmStage.Shows p now frame id (v.timed p now) :=
  visits (fun h hk => h.confirmVisit_other hk) confirmVisit_self h (.refl _)

theorem budgetStage (h : s.Shows p now frame id v) : s.budgetStage.Shows p now frame id v :=
  h.beside s.grows_budgetStage (h.waiting.congr (by rw [State.budgetStage_tt]) s.budgetStage_waitList)
    (State.record?_congr (by rw [State.budgetStage_tt]) id) (by rw [State.budgetStage_ot])

/-! ### Sheds and admissions -/

theorem shedTerminal_other (h : s.Shows p now frame id v) {k : Nat} {q : Record} (hq : s.record? k = some q)
    (hc : q.state.committed = true) (hk : k ≠ id) : (s.shedTerminal true k).Shows p now frame id v :=
  h.beside (engineClosed_grows.marker.shedTerminal s true k) (h.waiting.shedTerminal hq hc true)
    (State.record?_shedTerminal_of_ne h.records hq hk.symm true) (by rw [State.shedTerminal_ot h.records hq])

/-- A shed in a marker operation. -/
theorem shedTerminal (h : s.Shows p now frame id v) {k : Nat} {q : Record} (hq : s.record? k = some q)
    (hc : q.state.committed = true) : ∃ w, v.MayShed now w ∧ (s.shedTerminal true k).Shows p now frame id w := by
  by_cases hk : k = id
  · subst hk
    obtain rfl := h.eq_of_record? hq
    have changed := h.changed (engineClosed_grows.marker.shedTerminal s true k) (h.waiting.shedTerminal hq hc true)
      (State.record?_shedTerminal h.records hq true) (by rw [State.shedTerminal_ot h.records hq])
    refine ⟨v.shed now, .inr ⟨hc, rfl⟩, { changed with record := ?_, shedNow := fun _ => ?_ }⟩
    · rw [changed.record, h.markerCount]
      rfl
    · rw [State.shedTerminal_shedNote h.records hq]
      exact List.mem_append_right _ List.mem_cons_self
  · exact ⟨v, .inl rfl, h.shedTerminal_other hq hc hk⟩

theorem committed_of_sheddable {q : Record} (h : sheddable q = true) : q.state.committed = true := by
  simp only [sheddable, Bool.and_eq_true] at h
  exact h.1

theorem shedWhileOver (n : Nat) (h : s.Shows p now frame id v) :
    ∃ w, v.MayShed now w ∧ (State.shedWhileOver true n s).Shows p now frame id w := by
  induction n generalizing s v with
  | zero => exact ⟨v, .inl rfl, h⟩
  | succ n ih =>
    simp only [State.shedWhileOver]
    split
    · exact ⟨v, .inl rfl, h⟩
    · split
      · exact ⟨v, .inl rfl, h⟩
      · next k hv =>
        obtain ⟨⟨q, hq, victim⟩, -⟩ := State.victim?_spec h.records hv
        obtain ⟨u, first, hu⟩ := h.shedTerminal hq (committed_of_sheddable victim)
        obtain ⟨w, others, hw⟩ := ih hu
        exact ⟨w, first.trans others, hw⟩

theorem shedCheck (h : s.Shows p now frame id v) :
    ∃ w, v.MayShed now w ∧ (s.shedCheck true).Shows p now frame id w := h.shedWhileOver _

theorem makeRoom (headClass cost n : Nat) (h : s.Shows p now frame id v) :
    ∃ w, v.MayShed now w ∧ (State.makeRoom headClass cost n s).Shows p now frame id w := by
  induction n generalizing s v with
  | zero => exact ⟨v, .inl rfl, h⟩
  | succ n ih =>
    simp only [State.makeRoom]
    split
    · exact ⟨v, .inl rfl, h⟩
    · split
      · exact ⟨v, .inl rfl, h⟩
      · next k hv =>
        obtain ⟨⟨q, hq, victim⟩, -⟩ := State.victim?_spec h.records hv
        simp only [preemptible, Bool.and_eq_true] at victim
        obtain ⟨u, first, hu⟩ := h.shedTerminal hq (committed_of_sheddable victim.1)
        obtain ⟨w, others, hw⟩ := ih hu
        exact ⟨w, first.trans others, hw⟩

theorem admitTerminal_other (h : s.Shows p now frame id v) {k : Nat} {q : Record} (hq : s.record? k = some q)
    (hk : k ≠ id) (cost : Nat) : (s.admitTerminal k cost).Shows p now frame id v :=
  h.beside (engineClosed_grows.marker.admitTerminal s k cost) (h.waiting.admitTerminal hq cost)
    (State.record?_admitTerminal_of_ne h.records hq hk.symm cost) (by rw [State.admitTerminal_ot h.records hq])

theorem admitTerminal_self (h : s.Shows p now frame id v) (cost : Nat) :
    (s.admitTerminal id cost).Shows p now frame id (v.admitted cost) :=
  h.changed (engineClosed_grows.marker.admitTerminal s id cost) (h.waiting.admitTerminal h.record cost)
    (State.record?_admitTerminal h.records h.record cost) (by rw [State.admitTerminal_ot h.records h.record])

end State.Shows

/-! ## An admitted terminal keeps its place -/

/-- A terminal stands before every other one that waits. -/
def State.leads (s : State) (id : Nat) : Prop := ∀ k ∈ s.ac.waitList, k ≠ id → s.outranks id k = true

/-- The head of a wait list in priority order. -/
theorem State.WaitSound.leads_of_head {s : State} (h : s.WaitSound) {id : Nat} {rest : List Nat}
    (hl : s.ac.waitList = id :: rest) : s.leads id := fun k hk hne => by
  have ordered := h.ordered
  rw [hl] at hk ordered
  exact (List.pairwise_cons.1 ordered).1 k ((List.mem_cons.1 hk).resolve_left hne)

/-- Making room leaves every record provisioned. -/
theorem State.record?_makeRoom {s : State} {id : Nat} {r : Record} (h : s.record? id = some r) (headClass cost n : Nat) :
    ∃ q, (State.makeRoom headClass cost n s).record? id = some q := by
  have same := markerClosed_identity.makeRoom headClass cost n s id
  rw [h, Option.map_some, Option.map_eq_some_iff] at same
  exact same.imp fun _ => And.left

namespace State.Shows

variable {p : Params} {now : MarkerCount} {frame : FrameNumber} {id : Nat} {v : RecordView} {s : State}

/-- Room made for a head of the terminal's class, or a less important one, is made at the cost of other terminals, which then
wait behind it (R133). -/
theorem makeRoom_leads {headClass : Nat} (hcls : v.record.cls.code ≤ headClass) (cost n : Nat) (h : s.Shows p now frame id v)
    (lead : s.leads id) : (State.makeRoom headClass cost n s).Shows p now frame id v ∧
      (State.makeRoom headClass cost n s).leads id := by
  induction n generalizing s with
  | zero => exact ⟨h, lead⟩
  | succ n ih =>
    simp only [State.makeRoom]
    split
    · exact ⟨h, lead⟩
    · split
      · exact ⟨h, lead⟩
      · next k hv =>
        obtain ⟨⟨q, hq, victim⟩, -⟩ := State.victim?_spec h.records hv
        simp only [preemptible, Bool.and_eq_true, decide_eq_true_eq] at victim
        obtain ⟨sheds, less⟩ := victim
        have hk : k ≠ id := fun hk => by
          subst hk
          obtain rfl := h.eq_of_record? hq
          omega
        refine ih (h.shedTerminal_other hq (committed_of_sheddable sheds) hk) fun j hj hne => ?_
        rw [State.outranks_of_identity (markerClosed_identity.shedTerminal s true k)]
        rw [State.shedTerminal_waitList h.records hq, mem_insertBy] at hj
        rcases hj with rfl | hj
        · exact (State.outranks_iff h.record hq).2 (.inl (by omega))
        · exact lead j hj hne

theorem admitTerminal_leads (h : s.Shows p now frame id v) {k : Nat} {q : Record} (hq : s.record? k = some q) (cost : Nat)
    (lead : s.leads id) : (s.admitTerminal k cost).leads id := fun j hj hne => by
  rw [State.outranks_of_identity (markerClosed_identity.admitTerminal s k cost)]
  rw [State.admitTerminal_waitList h.records hq] at hj
  exact lead j (List.mem_of_mem_filter hj) hne

/-- The pass goes on without a terminal that no longer waits and stands before all that do: it is not preempted (R133). -/
theorem admissionPass_passed (n : Nat) (h : s.Shows p now frame id v) (hw : v.record.state.waiting = false)
    (lead : s.leads id) : (State.admissionPass n s).Shows p now frame id v := by
  induction n generalizing s with
  | zero => exact h
  | succ n ih =>
    simp only [State.admissionPass]
    split
    · exact h
    · next k rest hl =>
      have listed : k ∈ s.ac.waitList := by simp [hl]
      have hk : k ≠ id := fun hk => h.waiting.not_listed h.record hw (hk ▸ listed)
      split
      · exact h
      · split
        · exact h
        · next q hq =>
          have hcls := State.cls_le_of_outranks h.record hq (lead k listed hk)
          split
          · exact ih (h.admitTerminal_other hq hk _) (h.admitTerminal_leads hq _ lead)
          · split
            · obtain ⟨room, leads⟩ := h.makeRoom_leads hcls
                (airtimeCost s.lm.profiles q.load q.profile) s.tt.records.length lead
              obtain ⟨q', hq'⟩ := State.record?_makeRoom hq q.cls.code
                (airtimeCost s.lm.profiles q.load q.profile) s.tt.records.length
              exact ih (room.admitTerminal_other hq' hk _) (room.admitTerminal_leads hq' _ leads)
            · exact h

/-- The admission pass. -/
theorem admissionPass (n : Nat) (h : s.Shows p now frame id v) :
    ∃ w, v.MayAdmit now w ∧ (State.admissionPass n s).Shows p now frame id w := by
  induction n generalizing s v with
  | zero => exact ⟨v, .inl (.inl rfl), h⟩
  | succ n ih =>
    have kept : ∃ w, v.MayAdmit now w ∧ s.Shows p now frame id w := ⟨v, .inl (.inl rfl), h⟩
    simp only [State.admissionPass]
    split
    · exact kept
    · next k rest hl =>
      split
      · exact kept
      · next notShed =>
        split
        · exact kept
        · next q hq =>
          by_cases hk : k = id
          · subst hk
            obtain rfl := h.eq_of_record? hq
            have waits : v.record.state.waiting = true := by
              obtain ⟨r, hr, waits⟩ := h.waiting.waiters k (by simp [hl])
              exact h.eq_of_record? hr ▸ waits
            have mayAdmit (cost : Nat) : v.MayAdmit now (v.admitted cost) :=
              .inr ⟨waits, by simpa using mt h.shedNow notShed, cost, rfl⟩
            have lead := h.waiting.leads_of_head hl
            split
            · exact ⟨_, mayAdmit _, (h.admitTerminal_self _).admissionPass_passed n rfl (h.admitTerminal_leads hq _ lead)⟩
            · split
              · obtain ⟨room, leads⟩ := h.makeRoom_leads (Nat.le_refl _)
                  (airtimeCost s.lm.profiles v.record.load v.record.profile) s.tt.records.length lead
                exact ⟨_, mayAdmit _, (room.admitTerminal_self _).admissionPass_passed n rfl
                  (room.admitTerminal_leads room.record _ leads)⟩
              · exact kept
          · split
            · exact ih (h.admitTerminal_other hq hk _)
            · split
              · obtain ⟨u, first, room⟩ := h.makeRoom q.cls.code
                  (airtimeCost s.lm.profiles q.load q.profile) s.tt.records.length
                obtain ⟨q', hq'⟩ := State.record?_makeRoom hq q.cls.code
                  (airtimeCost s.lm.profiles q.load q.profile) s.tt.records.length
                obtain ⟨w, later, hw⟩ := ih (room.admitTerminal_other hq' hk _)
                exact ⟨w, first.then_mayAdmit later, hw⟩
              · exact kept

theorem admissionStage (h : s.Shows p now frame id v) :
    ∃ w, v.MayAdmit now w ∧ s.admissionStage.Shows p now frame id w := h.admissionPass _

end State.Shows

end Sys2Proof.Machine
end

section
/-! Each record at a marker in RUN (R65, R66, R70, R71, R130, R131): what the interleavings of the stages (log 1) can make of one
record, by a law of the record and of the stages that are left. -/

namespace Sys2Proof.Machine

open Sys2Proof

/-! ## Interleavings stage by stage (log 1) -/

/-- A law of what is left of two sequences holds at the end of every interleaving of them. -/
theorem foldl_interleave_kept {α β : Type} {op : β → α → β} {P : List α → List α → β → Prop}
    (first : ∀ x xs ys b, P (x :: xs) ys b → P xs ys (op b x)) (second : ∀ xs y ys b, P xs (y :: ys) b → P xs ys (op b y))
    (picks : List Bool) {xs ys : List α} {b : β} (h : P xs ys b) : P [] [] ((interleave picks xs ys).foldl op b) := by
  have rest {xs ys : List α} {b : β} (h : P xs ys b) : P [] [] ((xs ++ ys).foldl op b) := by
    induction xs generalizing b with
    | nil =>
      induction ys generalizing b with
      | nil => exact h
      | cons y ys ih => exact ih (second _ _ _ _ h)
    | cons x xs ih => exact ih (first _ _ _ _ h)
  induction picks generalizing xs ys b with
  | nil => exact rest h
  | cons pick picks ih =>
    cases pick with
    | true =>
      cases xs with
      | nil => exact rest h
      | cons x xs => exact ih (first _ _ _ _ h)
    | false =>
      cases ys with
      | nil => exact rest h
      | cons y ys => exact ih (second _ _ _ _ h)

namespace RecordView

/-- A law of a view and of the stages OT and AC have left, which every stage keeps. -/
structure Kept (p : Params) (now : MarkerCount) (P : List MarkerStage → List MarkerStage → RecordView → Prop) : Prop where
  cancel : ∀ {ys v}, P [.cancel, .holdOff, .probation] ys v →
    P [.holdOff, .probation] ys (v.cancelled p.holdOffBase now)
  holdOff : ∀ {ys v}, P [.holdOff, .probation] ys v → P [.probation] ys (v.heldOff now)
  probation : ∀ {ys v}, P [.probation] ys v → P [] ys v.onProbation
  confirm : ∀ {xs v}, P xs [.confirm, .budget, .shedCheck, .admission] v →
    P xs [.budget, .shedCheck, .admission] (v.timed p now)
  budget : ∀ {xs v}, P xs [.budget, .shedCheck, .admission] v → P xs [.shedCheck, .admission] v
  shedCheck : ∀ {xs v w}, v.MayShed now w → P xs [.shedCheck, .admission] v → P xs [.admission] w
  admission : ∀ {xs v w}, v.MayAdmit now w → P xs [.admission] v → P xs [] w

end RecordView

/-- The marker operations, in any interleaving, on a record whose view meets a law the stages keep. -/
theorem State.Shows.stages {p : Params} {now : MarkerCount} {frame : FrameNumber} {id : Nat} {v : RecordView} {s : State}
    {P : List MarkerStage → List MarkerStage → RecordView → Prop} (kept : RecordView.Kept p now P)
    (h : s.Shows p now frame id v) (start : P otStages acStages v) (picks : List Bool) (rank : Nat → Nat) :
    ∃ w, P [] [] w ∧ ((interleave picks otStages acStages).foldl (runStage rank) s).Shows p now frame id w := by
  have left := foldl_interleave_kept (op := runStage rank)
    (P := fun xs ys u => xs <:+ otStages ∧ ys <:+ acStages ∧ ∃ w, P xs ys w ∧ u.Shows p now frame id w) ?_ ?_ picks
    ⟨List.suffix_refl _, List.suffix_refl _, v, start, h⟩
  · obtain ⟨-, -, w, hw, shows'⟩ := left
    exact ⟨w, hw, shows'⟩
  · rintro x xs ys u ⟨suffix, hys, w, hw, hu⟩
    refine ⟨(List.suffix_cons x xs).trans suffix, hys, ?_⟩
    simp only [otStages, List.suffix_cons_iff, List.cons.injEq, List.suffix_nil, reduceCtorEq, or_false] at suffix
    rcases suffix with ⟨rfl, rfl⟩ | ⟨rfl, rfl⟩ | ⟨rfl, rfl⟩
    · exact ⟨_, kept.cancel hw, hu.cancelStage rank⟩
    · exact ⟨_, kept.holdOff hw, hu.holdOffStage⟩
    · exact ⟨_, kept.probation hw, hu.probationStage⟩
  · rintro xs y ys u ⟨hxs, suffix, w, hw, hu⟩
    refine ⟨hxs, (List.suffix_cons y ys).trans suffix, ?_⟩
    simp only [acStages, List.suffix_cons_iff, List.cons.injEq, List.suffix_nil, reduceCtorEq, or_false] at suffix
    rcases suffix with ⟨rfl, rfl⟩ | ⟨rfl, rfl⟩ | ⟨rfl, rfl⟩ | ⟨rfl, rfl⟩
    · exact ⟨_, kept.confirm hw, hu.confirmStage⟩
    · exact ⟨_, kept.budget hw, hu.budgetStage⟩
    · obtain ⟨w', sheds, hw'⟩ := hu.shedCheck
      exact ⟨w', kept.shedCheck sheds hw, hw'⟩
    · obtain ⟨w', admits, hw'⟩ := hu.admissionStage
      exact ⟨w', kept.admission admits hw, hw'⟩

/-- The state after a marker taken in RUN, which has been offered on DS-out (R14). -/
def State.afterMarker (s : State) (frame : FrameNumber) (tail : List Byte) : State :=
  ((s.recordFrame frame).markerInRun).offerDs (DsItem.marker frame tail).bytes

theorem State.afterMarker_mask (s : State) (frame : FrameNumber) (tail : List Byte) :
    (s.afterMarker frame tail).mu.mask = s.mu.mask := by
  rw [State.afterMarker, State.offerDs_mu, State.markerInRun_eq]
  exact (State.engineOnly_foldl (State.engineOnly_runStage _) _ (s.recordFrame frame).countMarker).mask

/-- The record of an ID, and the answers its cancel request is given, after a marker taken in RUN. -/
theorem State.afterMarker_shows {s : State} {frame : FrameNumber} {tail : List Byte} {id : Nat} {r : Record}
    (sound : s.WaitSound) (fresh : s.ot.lostNow = []) (hr : s.record? id = some r)
    {P : List MarkerStage → List MarkerStage → RecordView → Prop}
    (kept : RecordView.Kept s.params (s.si.markerCount + 1) P) (start : P otStages acStages (.start r)) :
    ∃ w, P [] [] w ∧ (s.afterMarker frame tail).record? id = some w.record ∧
      ∀ a, w.answer = some a → (s.afterMarker frame tail).cancelTold frame id a.1 a.2 := by
  have unnoted : id ∈ (s.recordFrame frame).countMarker.ot.lostNow ↔ (RecordView.start r).lostNow = true := by
    rw [show (s.recordFrame frame).countMarker.ot.lostNow = [] from fresh]
    simp [RecordView.start]
  have shown : (s.recordFrame frame).countMarker.Shows s.params (s.si.markerCount + 1) frame id (.start r) :=
    ⟨sound.congr rfl rfl, rfl, rfl, rfl, hr, unnoted, fun h => (by cases h), fun a h => (by cases h)⟩
  obtain ⟨w, hw, reached⟩ := shown.stages kept start (Config.markerPicks s.raceTick) (Config.cancelRank s.raceTick)
  have marker := (s.recordFrame frame).markerInRun_eq
  refine ⟨w, hw, ?_, fun a ha => ?_⟩
  · rw [State.afterMarker, State.record?_congr (congrArg Tt.records (State.offerDs_tt _ _)), marker]
    exact reached.record
  · have told := reached.answer a ha
    rw [State.cancelTold, State.afterMarker, State.offerDs_mu, marker]
    exact told

/-! ## Visits that do nothing -/

namespace RecordView

theorem heldOff_of_noted {now : MarkerCount} {v : RecordView} (h : v.lostNow = true) : v.heldOff now = v := by
  rw [heldOff, if_pos h]

theorem heldOff_of_not_lost {now : MarkerCount} {v : RecordView} (h : v.record.state ≠ .lost) : v.heldOff now = v := by
  simp only [heldOff, holdOffVisit, if_neg h, ite_self]

theorem onProbation_of_not_committed {v : RecordView} (h : v.record.state.committed = false) : v.onProbation = v := by
  simp only [onProbation, probationVisit, h, Bool.false_eq_true, false_and, if_false]

theorem timed_of_none {p : Params} {now : MarkerCount} {v : RecordView} (h : v.record.confirmTimer = none) :
    v.timed p now = v := by
  simp only [timed, confirmVisited, h]

theorem MayShed.eq_of_not_committed {now : MarkerCount} {v w : RecordView} (h : v.MayShed now w)
    (hc : v.record.state.committed = false) : w = v := by
  rcases h with h | ⟨hc', -⟩
  · exact h
  · rw [hc] at hc'
    cases hc'

theorem MayAdmit.eq_of_idle {now : MarkerCount} {v w : RecordView} (h : v.MayAdmit now w)
    (hc : v.record.state.committed = false) (hw : v.record.state.waiting = false) : w = v := by
  rcases h with h | ⟨hw', -⟩
  · exact h.eq_of_not_committed hc
  · rw [hw] at hw'
    cases hw'

/-! ## The first cancel resolution -/

section
variable {r : Record} (base : Nat) (now : MarkerCount)

/-- Without a request there is nothing to resolve. -/
theorem cancelled_start_of_not (hc : r.cancelReq = false) : (start r).cancelled base now = start r :=
  if_neg (by rw [start, hc]; decide)

theorem record_cancelled_start : ((start r).cancelled base now).record =
    if r.cancelReq = true ∧ cancellable r.state = true then lostRecord base now .cancelled { r with cancelReq := false }
    else { r with cancelReq := false } := by
  by_cases hc : r.cancelReq = true
  · by_cases hst : cancellable r.state = true <;> simp [cancelled, start, hc, hst]
  · have unasked : r = { r with cancelReq := false } := by
      rw [← Bool.eq_false_iff.2 hc]
    simpa [cancelled, start, hc] using unasked

theorem lostNow_cancelled_start :
    ((start r).cancelled base now).lostNow = (r.cancelReq && cancellable r.state) := by
  by_cases hc : r.cancelReq = true <;> simp [cancelled, start, hc]

theorem answer_cancelled_start (hc : r.cancelReq = true) : ((start r).cancelled base now).answer =
    some (if cancelTooLate r.state then 1 else 0, r.state) := by
  rw [cancelled, if_pos (by exact hc)]
  rfl

end

/-! ## The answer to a cancel request -/

/-- A request is still set while cancel resolution is left, and answered as a condition says when it is not. -/
def answered (v : RecordView) (asked : Bool) (xs : List MarkerStage) (A : Int × TState → Prop) : Prop :=
  asked = true → if .cancel ∈ xs then v.record.cancelReq = true else ∃ a, A a ∧ v.answer = some a

section
variable {v w : RecordView} {asked : Bool} {xs ys : List MarkerStage} {A : Int × TState → Prop}

/-- A stage that touches neither the request nor its answer. -/
theorem answered.congr (h : v.answered asked xs A) (request : w.record.cancelReq = v.record.cancelReq)
    (answer : w.answer = v.answer) (left : MarkerStage.cancel ∈ ys ↔ MarkerStage.cancel ∈ xs) : w.answered asked ys A :=
  fun hc => by simpa only [request, answer, left] using h hc

theorem answered.mono (h : v.answered asked xs A) {B : Int × TState → Prop} (hAB : ∀ a, A a → B a) :
    v.answered asked xs B := fun hc => by
  have given := h hc
  by_cases left : MarkerStage.cancel ∈ xs
  · rwa [if_pos left] at given ⊢
  · rw [if_neg left] at given ⊢
    exact given.imp fun a ha => ⟨hAB a ha.1, ha.2⟩

/-- With no stage left, a request has been answered. -/
theorem answered.tells (h : v.answered asked [] A) {T : Int × TState → Prop} (hT : ∀ a, v.answer = some a → T a)
    (hc : asked = true) : ∃ a, A a ∧ T a := by
  have given := h hc
  rw [if_neg (by simp)] at given
  exact given.imp fun a ha => ⟨ha.1, hT a ha.2⟩

/-- Cancel resolution answers by the state it finds (R70). -/
theorem answered.cancelled (h : v.answered asked [.cancel, .holdOff, .probation] A) (base : Nat) (now : MarkerCount)
    (hA : A (if cancelTooLate v.record.state then 1 else 0, v.record.state)) :
    (v.cancelled base now).answered asked [.holdOff, .probation] A := fun hc => by
  have set : v.record.cancelReq = true := by simpa using h hc
  rw [if_neg (by decide)]
  exact ⟨_, hA, by simp [RecordView.cancelled, set]⟩

end

theorem start_answered (r : Record) (A : Int × TState → Prop) : (start r).answered r.cancelReq otStages A := fun hc => by
  rw [if_pos (by decide)]
  exact hc

/-! ## Terminals neither committed nor waiting -/

/-- A record that AC's marker operation passes by. -/
def idle (v : RecordView) : Prop :=
  v.record.state.committed = false ∧ v.record.state.waiting = false ∧ v.record.confirmTimer = none

/-- OT's stages on a view. -/
def otVisit (base : Nat) (now : MarkerCount) (v : RecordView) : MarkerStage → RecordView
  | .cancel => v.cancelled base now
  | .holdOff => v.heldOff now
  | .probation => v.onProbation
  | _ => v

theorem stateAfterLoss_cancelled (r : Record) :
    stateAfterLoss .cancelled r = .held ∨ stateAfterLoss .cancelled r = .lost := by
  simp only [stateAfterLoss, reduceCtorEq, if_false]
  split
  · exact .inl rfl
  · exact .inr rfl

theorem idle.cancelled {v : RecordView} (h : v.idle) (base : Nat) (now : MarkerCount) : (v.cancelled base now).idle := by
  obtain ⟨committed, waiting, timer⟩ := h
  simp only [RecordView.cancelled]
  split
  · simp only [idle]
    split
    · rcases stateAfterLoss_cancelled { v.record with cancelReq := false } with hst | hst <;>
        simp only [lostRecord, hst] <;> decide
    · exact ⟨committed, waiting, timer⟩
  · exact ⟨committed, waiting, timer⟩

theorem idle.heldOff {v : RecordView} (h : v.idle) (now : MarkerCount) : (v.heldOff now).idle := by
  obtain ⟨committed, waiting, timer⟩ := h
  simp only [idle, RecordView.heldOff, holdOffVisit]
  split_ifs
  · exact ⟨committed, waiting, timer⟩
  · exact ⟨rfl, rfl, timer⟩
  · exact ⟨committed, waiting, timer⟩
  · exact ⟨committed, waiting, timer⟩

/-- AC's stages leave an idle record, so its interleavings are OT's stages in their order. -/
theorem kept_idle (p : Params) (now : MarkerCount) (target : RecordView) :
    Kept p now fun xs _ v => v.idle ∧ xs.foldl (otVisit p.holdOffBase now) v = target where
  cancel := fun ⟨idle, reach⟩ => ⟨idle.cancelled _ _, reach⟩
  holdOff := fun ⟨idle, reach⟩ => ⟨idle.heldOff _, reach⟩
  probation := fun ⟨idle, reach⟩ => ⟨by rwa [onProbation_of_not_committed idle.1], reach⟩
  confirm := fun ⟨idle, reach⟩ => by
    obtain ⟨committed, waiting, timer⟩ := idle
    rw [timed_of_none timer]
    exact ⟨⟨committed, waiting, timer⟩, reach⟩
  budget := id
  shedCheck := fun sheds h => by rwa [sheds.eq_of_not_committed h.1.1]
  admission := fun admits h => by rwa [admits.eq_of_idle h.1.1 h.1.2.1]

/-! ## Waiting terminals -/

section
variable {r : Record} (base : Nat) (now : MarkerCount)

/-- What cancel resolution leaves of a waiting terminal is lost, or waits with its request cleared. -/
theorem cancelled_start_of_waiting (hw : r.state.waiting = true) (ht : r.confirmTimer = none) :
    ((start r).cancelled base now).record.state.committed = false ∧
      ((start r).cancelled base now).record.confirmTimer = none ∧
      ((start r).cancelled base now).heldOff now = (start r).cancelled base now := by
  rcases (TState.waiting_iff r.state).1 hw with hst | hst
  · by_cases hc : r.cancelReq = true
    · have lost : ((start r).cancelled base now).record = lostRecord base now .cancelled { r with cancelReq := false } := by
        rw [record_cancelled_start, if_pos ⟨hc, by rw [hst]; rfl⟩]
      refine ⟨?_, by rw [lost]; rfl, heldOff_of_noted ?_⟩
      · rw [lost]
        rcases stateAfterLoss_cancelled { r with cancelReq := false } with hs | hs <;> simp only [lostRecord, hs] <;> rfl
      · rw [lostNow_cancelled_start, hc, hst]
        rfl
    · have kept : ((start r).cancelled base now).record = { r with cancelReq := false } := by
        rw [record_cancelled_start, if_neg fun h => hc h.1]
      exact ⟨by rw [kept, hst]; rfl, by rw [kept]; exact ht, heldOff_of_not_lost (by rw [kept, hst]; decide)⟩
  · have kept : ((start r).cancelled base now).record = { r with cancelReq := false } := by
      rw [record_cancelled_start, if_neg fun h => by rw [hst] at h; exact absurd h.2 (by decide)]
    exact ⟨by rw [kept, hst]; rfl, by rw [kept]; exact ht, heldOff_of_not_lost (by rw [kept, hst]; decide)⟩

end

/-- The answers an admitted terminal's cancel request can have been given. -/
def admittedAnswer (st : TState) (a : Int × TState) : Prop := a = (1, .confirming) ∨ (st = .shed ∧ a = (1, .shed))

/-- A waiting terminal along a marker: as cancel resolution leaves it, or admitted. -/
def waitingLaw (base : Nat) (now : MarkerCount) (r : Record) (xs ys : List MarkerStage) (v : RecordView) : Prop :=
  v = (if .cancel ∈ xs then start r else (start r).cancelled base now) ∨
    (v.record.state = .confirming ∧ ys = [] ∧ v.answered r.cancelReq xs (admittedAnswer r.state))

theorem kept_waiting (p : Params) (now : MarkerCount) {r : Record} (hw : r.state.waiting = true)
    (ht : r.confirmTimer = none) : Kept p now (waitingLaw p.holdOffBase now r) := by
  obtain ⟨committed, timer, unheld⟩ := cancelled_start_of_waiting p.holdOffBase now hw ht
  have inert (xs : List MarkerStage) : let v := if .cancel ∈ xs then start r else (start r).cancelled p.holdOffBase now
      v.record.state.committed = false ∧ v.record.confirmTimer = none := by
    dsimp only
    split
    · exact ⟨by rcases (TState.waiting_iff r.state).1 hw with h | h <;> simp only [start, h] <;> rfl, ht⟩
    · exact ⟨committed, timer⟩
  refine ⟨?cancel, ?holdOff, ?probation, ?confirm, ?budget, ?shedCheck, ?admission⟩
  case cancel =>
    rintro ys v (rfl | ⟨hst, hys, asked⟩)
    · exact .inl rfl
    · have late : cancellable v.record.state = false := by rw [hst]; rfl
      refine .inr ⟨?_, hys, asked.cancelled _ _ (.inl (by rw [hst]; rfl))⟩
      simp only [RecordView.cancelled, late]
      split <;> exact hst
  case holdOff =>
    rintro ys v (rfl | ⟨hst, hys, asked⟩)
    · exact .inl unheld
    · rw [heldOff_of_not_lost (by rw [hst]; decide)]
      exact .inr ⟨hst, hys, asked.congr rfl rfl (by decide)⟩
  case probation =>
    rintro ys v (rfl | ⟨hst, hys, asked⟩)
    · exact .inl (onProbation_of_not_committed committed)
    · refine .inr ⟨?_, hys, asked.congr ?_ rfl (by decide)⟩ <;> simp only [onProbation, probationVisit] <;> split
      · exact hst
      · exact hst
      · rfl
      · rfl
  case confirm =>
    rintro xs v (rfl | ⟨-, hys, -⟩)
    · exact .inl (timed_of_none (inert xs).2)
    · cases hys
  case budget =>
    rintro xs v (rfl | ⟨-, hys, -⟩)
    · exact .inl rfl
    · cases hys
  case shedCheck =>
    rintro xs v w sheds (rfl | ⟨-, hys, -⟩)
    · exact .inl (sheds.eq_of_not_committed (inert xs).1)
    · cases hys
  case admission =>
    rintro xs v w admits (rfl | ⟨-, hys, -⟩)
    · rcases admits with sheds | ⟨waits, -, cost, rfl⟩
      · exact .inl (sheds.eq_of_not_committed (inert xs).1)
      · refine .inr ⟨rfl, rfl, fun hc => ?_⟩
        split at waits
        · next left =>
          rw [if_pos left, if_pos left]
          exact hc
        · next done =>
          have hst : r.state = .shed := ((TState.waiting_iff r.state).1 hw).resolve_left fun hst => by
            rw [record_cancelled_start, if_pos ⟨hc, by rw [hst]; rfl⟩] at waits
            rcases stateAfterLoss_cancelled { r with cancelReq := false } with hs | hs <;>
              simp only [lostRecord, hs] at waits <;> cases waits
          rw [if_neg done, if_neg done]
          refine ⟨(1, .shed), .inr ⟨hst, rfl⟩, ?_⟩
          rw [admitted, answer_cancelled_start _ _ hc, hst]
          rfl
    · cases hys

end RecordView

/-! ## Committed terminals -/

/-- A confirm timer that expires at this marker with no try left (R131). -/
def confirmFails (p : Params) (r : Record) : Prop :=
  (r.confirmTimer = some 0 ∨ r.confirmTimer = some 1) ∧ p.admitTriesMax ≤ r.admitTries

/-- A confirm timer that does not fail is counted or retried. -/
theorem confirmVisited_of_not_fails {p : Params} {r : Record} (h : ¬ confirmFails p r) (now : MarkerCount) :
    confirmVisited p now r = match r.confirmTimer with
      | none => r
      | some n => if 1 < n then { r with confirmTimer := some (n - 1) } else retriedRecord r := by
  rcases ht : r.confirmTimer with _ | n
  · simp only [confirmVisited, ht]
  · simp only [confirmVisited, ht]
    split_ifs with hn ha
    · rfl
    · rfl
    · exact absurd ⟨by rw [ht]; rcases (by omega : n = 0 ∨ n = 1) with rfl | rfl <;> simp, by omega⟩ h

theorem confirmVisited_state {p : Params} {r : Record} (h : ¬ confirmFails p r) (now : MarkerCount) :
    (confirmVisited p now r).state = r.state := by
  rw [confirmVisited_of_not_fails h]
  rcases r.confirmTimer with _ | n
  · rfl
  · dsimp only
    split <;> rfl

theorem probationVisit_state (r : Record) : (probationVisit r).state = r.state := by
  simp only [probationVisit]
  split <;> rfl

theorem probationVisit_cancelReq (r : Record) : (probationVisit r).cancelReq = r.cancelReq := by
  simp only [probationVisit]
  split <;> rfl

theorem confirmVisited_cancelReq (p : Params) (now : MarkerCount) (r : Record) :
    (confirmVisited p now r).cancelReq = r.cancelReq := by
  simp only [confirmVisited]
  split
  · rfl
  · split_ifs <;> rfl

/-- Clearing the cancel request does not touch the confirm timer. -/
theorem confirmVisited_cleared (p : Params) (now : MarkerCount) (r : Record) :
    confirmVisited p now { r with cancelReq := false } = { confirmVisited p now r with cancelReq := false } := by
  rcases ht : r.confirmTimer with _ | n
  · simp only [confirmVisited, ht]
  · simp only [confirmVisited, ht]
    split_ifs <;> rfl

/-- Probation and confirm timer are counted in either order. -/
theorem confirmVisited_probationVisit {p : Params} {r : Record} (h : ¬ confirmFails p r) (now : MarkerCount) :
    confirmVisited p now (probationVisit r) = probationVisit (confirmVisited p now r) := by
  have fails : ¬ confirmFails p (probationVisit r) := by
    have timer : (probationVisit r).confirmTimer = r.confirmTimer := by simp only [probationVisit]; split <;> rfl
    have tries : (probationVisit r).admitTries = r.admitTries := by simp only [probationVisit]; split <;> rfl
    rwa [confirmFails, timer, tries]
  rw [confirmVisited_of_not_fails fails, confirmVisited_of_not_fails h]
  by_cases counted : r.state.committed = true ∧ 0 < r.probation
  · rcases ht : r.confirmTimer with _ | n
    · simp only [probationVisit, if_pos counted, ht]
    · simp only [probationVisit, if_pos counted, ht]
      split
      · rfl
      · exact (if_pos counted).symm
  · rcases ht : r.confirmTimer with _ | n
    · simp only [probationVisit, if_neg counted, ht]
    · simp only [probationVisit, if_neg counted, ht]
      split
      · rfl
      · exact (if_neg counted).symm

namespace RecordView

/-- A committed record after the stages that have been carried out, as long as it is neither shed nor lost. -/
def carried (p : Params) (now : MarkerCount) (xs ys : List MarkerStage) (r : Record) : Record :=
  let cleared : Record := if .cancel ∈ xs then r else { r with cancelReq := false }
  let timed := if .confirm ∈ ys then cleared else confirmVisited p now cleared
  if .probation ∈ xs then timed else probationVisit timed

theorem carried_state {p : Params} {r : Record} (h : ¬ confirmFails p r) (now : MarkerCount) (xs ys : List MarkerStage) :
    (carried p now xs ys r).state = r.state := by
  have cleared : ¬ confirmFails p { r with cancelReq := false } := h
  simp only [carried]
  split_ifs <;> simp only [probationVisit_state, confirmVisited_state h, confirmVisited_state cleared]

/-- A committed terminal whose confirm timer does not fail: as its stages leave it, or shed. -/
def committedLaw (p : Params) (now : MarkerCount) (r : Record) (xs ys : List MarkerStage) (v : RecordView) : Prop :=
  (v.record = carried p now xs ys r ∧ v.answered r.cancelReq xs (· = (1, r.state))) ∨
    (v.record.state = .shed ∧ v.shedNow = true ∧ .confirm ∉ ys ∧
      v.answered r.cancelReq xs fun a => a = (1, r.state) ∨ a = (1, .shed))

theorem cancelTooLate_of_committed {st : TState} (h : st.committed = true) :
    cancellable st = false ∧ cancelTooLate st = true := by
  cases st <;> simp_all [TState.committed] <;> decide

/-- Cancel resolution clears the request of a terminal that has no re-entry to give up. -/
theorem record_cancelled {v : RecordView} (h : cancellable v.record.state = false) (base : Nat) (now : MarkerCount) :
    (v.cancelled base now).record = { v.record with cancelReq := false } := by
  by_cases hc : v.record.cancelReq = true
  · simp [cancelled, hc, h]
  · rw [cancelled, if_neg hc, ← Bool.eq_false_iff.2 hc]

theorem kept_committed (p : Params) (now : MarkerCount) {r : Record} (hc : r.state.committed = true)
    (hf : ¬ confirmFails p r) : Kept p now (committedLaw p now r) := by
  have state (xs ys : List MarkerStage) : (carried p now xs ys r).state = r.state := carried_state hf now xs ys
  obtain ⟨stays, late⟩ := cancelTooLate_of_committed hc
  have away : r.state ≠ .lost := fun h => by rw [h] at hc; cases hc
  have unwaiting : r.state.waiting = false := by cases hst : r.state <;> simp_all [TState.committed] <;> rfl
  /- A shed in AC's marker operation, after the confirm timers. -/
  have sheds {xs ys zs : List MarkerStage} {v w : RecordView} (h : v.MayShed now w) (hy : .confirm ∉ ys) (hz : .confirm ∉ zs)
      (law : committedLaw p now r xs ys v) : committedLaw p now r xs zs w := by
    rcases law with ⟨record, asked⟩ | ⟨hst, noted, -, asked⟩
    · rcases h with rfl | ⟨-, rfl⟩
      · refine .inl ⟨?_, asked⟩
        rw [record]
        simp only [carried, if_neg hy, if_neg hz]
      · exact .inr ⟨rfl, rfl, hz, (asked.congr rfl rfl Iff.rfl).mono fun a ha => .inl ha⟩
    · rw [h.eq_of_not_committed (by rw [hst]; rfl)]
      exact .inr ⟨hst, noted, hz, asked⟩
  refine ⟨?cancel, ?holdOff, ?probation, ?confirm, ?budget, ?shedCheck, ?admission⟩
  case cancel =>
    rintro ys v (⟨record, asked⟩ | ⟨hst, noted, hy, asked⟩)
    · have st : v.record.state = r.state := by rw [record, state]
      refine .inl ⟨?_, asked.cancelled _ _ (by rw [st, late]; rfl)⟩
      rw [record_cancelled (by rw [st]; exact stays), record]
      by_cases hy : MarkerStage.confirm ∈ ys
      · simp [carried, hy]
      · simp [carried, hy, confirmVisited_cleared]
    · have past : cancellable v.record.state = false := by rw [hst]; rfl
      refine .inr ⟨?_, ?_, hy, asked.cancelled _ _ (.inr (by rw [hst]; rfl))⟩
      · rw [record_cancelled past]
        exact hst
      · simp only [RecordView.cancelled]
        split <;> exact noted
  case holdOff =>
    rintro ys v (⟨record, asked⟩ | ⟨hst, noted, hy, asked⟩)
    · rw [heldOff_of_not_lost (by rw [record, state]; exact away)]
      exact .inl ⟨by simpa [carried] using record, asked.congr rfl rfl (by decide)⟩
    · rw [heldOff_of_not_lost (by rw [hst]; decide)]
      exact .inr ⟨hst, noted, hy, asked.congr rfl rfl (by decide)⟩
  case probation =>
    rintro ys v (⟨record, asked⟩ | ⟨hst, noted, hy, asked⟩)
    · refine .inl ⟨?_, asked.congr (probationVisit_cancelReq _) rfl (by decide)⟩
      rw [onProbation, record]
      simp [carried]
    · rw [onProbation_of_not_committed (by rw [hst]; rfl)]
      exact .inr ⟨hst, noted, hy, asked.congr rfl rfl (by decide)⟩
  case confirm =>
    rintro xs v (⟨record, asked⟩ | ⟨-, -, hy, -⟩)
    · refine .inl ⟨?_, asked.congr (confirmVisited_cancelReq _ _ _) rfl Iff.rfl⟩
      have cleared : ¬ confirmFails p { r with cancelReq := false } := hf
      rw [timed, record]
      by_cases hx : MarkerStage.probation ∈ xs <;> by_cases hx' : MarkerStage.cancel ∈ xs <;>
        simp [carried, hx, hx', confirmVisited_probationVisit hf, confirmVisited_probationVisit cleared]
    · exact absurd (List.mem_cons_self) hy
  case budget =>
    exact fun law => sheds (.inl rfl) (by decide) (by decide) law
  case shedCheck =>
    exact fun h law => sheds h (by decide) (by decide) law
  case admission =>
    rintro xs v w (h | ⟨waits, fresh, -⟩) law
    · exact sheds h (by decide) (by decide) law
    · rcases law with ⟨record, -⟩ | ⟨-, noted, -⟩
      · rw [record, state, unwaiting] at waits
        cases waits
      · rw [noted] at fresh
        cases fresh

/-! ## A confirm timer with no try left -/

/-- The fields of a record that a failed confirmation has lost (R59, R131), in LOST or, its hold-off over, in POLLING. -/
structure ConfirmLost (r : Record) (xs : List MarkerStage) (q : Record) : Prop where
  state : q.state = .lost ∨ (q.state = .polling ∧ .holdOff ∉ xs)
  lastReason : q.lastReason = .confirmTimeout
  losses : q.losses = r.losses + 1
  cost : q.cost = 0
  probation : q.probation = 0
  confirmTimer : q.confirmTimer = none
  message : q.message = none

/-- A terminal whose confirm timer fails: CONFIRMING until AC's first stage, and lost from then on. -/
def failingLaw (r : Record) (xs ys : List MarkerStage) (v : RecordView) : Prop :=
  (.confirm ∈ ys ∧ v.record.state = .confirming ∧ v.record.confirmTimer = r.confirmTimer ∧
    v.record.admitTries = r.admitTries ∧ v.record.losses = r.losses ∧ v.answered r.cancelReq xs (· = (1, .confirming))) ∨
  (.confirm ∉ ys ∧ ConfirmLost r xs v.record ∧
    v.answered r.cancelReq xs fun a => a = (1, .confirming) ∨ a = (0, .lost))

theorem ConfirmLost.idle {r : Record} {xs : List MarkerStage} {v : RecordView} (h : ConfirmLost r xs v.record) : v.idle := by
  rcases h.state with hst | ⟨hst, -⟩ <;> exact ⟨by rw [hst]; rfl, by rw [hst]; rfl, h.confirmTimer⟩

theorem ConfirmLost.holdOffVisit {r q : Record} {xs : List MarkerStage} (h : ConfirmLost r xs q) (now : MarkerCount) :
    ConfirmLost r [.probation] (holdOffVisit now q) := by
  have gone : MarkerStage.holdOff ∉ [MarkerStage.probation] := by decide
  have stays : ConfirmLost r [.probation] q := { h with state := h.state.imp_right fun ⟨hst, _⟩ => ⟨hst, gone⟩ }
  simp only [Machine.holdOffVisit]
  split_ifs
  · exact { stays with state := .inr ⟨rfl, gone⟩ }
  · exact { stays with }
  · exact stays

theorem kept_failing (p : Params) (now : MarkerCount) {r : Record} (hf : confirmFails p r) : Kept p now (failingLaw r) := by
  refine ⟨?cancel, ?holdOff, ?probation, ?confirm, ?budget, ?shedCheck, ?admission⟩
  case cancel =>
    rintro ys v (⟨hy, hst, timer, tries, losses, asked⟩ | ⟨hy, lost, asked⟩)
    · have record := record_cancelled (v := v) (by rw [hst]; rfl) p.holdOffBase now
      refine .inl ⟨hy, ?_, ?_, ?_, ?_, asked.cancelled _ _ (by rw [hst]; rfl)⟩ <;> rw [record]
      · exact hst
      · exact timer
      · exact tries
      · exact losses
    · have hst : v.record.state = .lost := lost.state.resolve_right fun h => h.2 (by decide)
      refine .inr ⟨hy, ?_, asked.cancelled _ _ (.inr (by rw [hst]; rfl))⟩
      rw [record_cancelled (v := v) (by rw [hst]; rfl)]
      exact { lost with state := .inl hst }
  case holdOff =>
    rintro ys v (⟨hy, hst, timer, tries, losses, asked⟩ | ⟨hy, lost, asked⟩)
    · rw [heldOff_of_not_lost (by rw [hst]; decide)]
      exact .inl ⟨hy, hst, timer, tries, losses, asked.congr rfl rfl (by decide)⟩
    · refine .inr ⟨hy, ?_, asked.congr ?_ rfl (by decide)⟩ <;> simp only [heldOff] <;> split
      · exact { lost with state := lost.state.imp_right fun ⟨hst, _⟩ => ⟨hst, by decide⟩ }
      · exact lost.holdOffVisit now
      · rfl
      · simp only [holdOffVisit]
        split_ifs <;> rfl
  case probation =>
    rintro ys v (⟨hy, hst, timer, tries, losses, asked⟩ | ⟨hy, lost, asked⟩)
    · have counted : v.onProbation.answered r.cancelReq [] (· = (1, .confirming)) :=
        asked.congr (probationVisit_cancelReq _) rfl (by decide)
      refine .inl ⟨hy, (probationVisit_state _).trans hst, ?_, ?_, ?_, counted⟩ <;>
        simp only [onProbation, probationVisit] <;> split
      all_goals assumption
    · rw [onProbation_of_not_committed lost.idle.1]
      refine .inr ⟨hy, ?_, asked.congr rfl rfl (by decide)⟩
      exact { lost with state := lost.state.imp_right fun ⟨hst, _⟩ => ⟨hst, by decide⟩ }
  case confirm =>
    rintro xs v (⟨-, hst, timer, tries, losses, asked⟩ | ⟨hy, -⟩)
    · have lost : confirmVisited p now v.record = lostRecord p.holdOffBase now .confirmTimeout v.record := by
        obtain ⟨ends, last⟩ := hf
        rw [← timer, ← tries] at *
        rcases ends with ends | ends <;> simp [confirmVisited, ends, Nat.not_lt.2 last]
      have carried : (v.timed p now).answered r.cancelReq xs (· = (1, .confirming)) :=
        asked.congr (confirmVisited_cancelReq _ _ _) rfl Iff.rfl
      refine .inr ⟨by decide, ?_, carried.mono fun a ha => .inl ha⟩
      rw [timed, lost]
      refine ⟨.inl ?_, rfl, congrArg (· + 1) losses, rfl, rfl, rfl, rfl⟩
      simp [lostRecord, stateAfterLoss, lossGrantsHold, hst]
    · exact absurd List.mem_cons_self hy
  case budget =>
    rintro xs v (⟨hy, -⟩ | ⟨-, law⟩)
    · exact absurd hy (by decide)
    · exact .inr ⟨by decide, law⟩
  case shedCheck =>
    rintro xs v w sheds (⟨hy, -⟩ | ⟨-, lost, asked⟩)
    · exact absurd hy (by decide)
    · rw [sheds.eq_of_not_committed lost.idle.1]
      exact .inr ⟨by decide, lost, asked⟩
  case admission =>
    rintro xs v w admits (⟨hy, -⟩ | ⟨-, lost, asked⟩)
    · exact absurd hy (by decide)
    · rw [admits.eq_of_idle lost.idle.1 lost.idle.2.1]
      exact .inr ⟨by decide, lost, asked⟩

end RecordView

end Sys2Proof.Machine
end

section
/-! Each record after a marker in RUN, by the state it had before it. -/

namespace Sys2Proof.Machine

open Sys2Proof

/-! ## A record after a marker -/

/-- A committed record at the probation stage, its timer running or not (R66). -/
theorem probationVisit_of_committed {q : Record} (h : q.state.committed = true) : probationVisit q =
    { q with probation := q.probation - 1, backoff := if q.probation = 1 then q.backoff - 1 else q.backoff } := by
  rw [probationVisit]
  split
  · rfl
  · next stopped =>
    have zero : q.probation = 0 := Nat.eq_zero_of_not_pos fun runs => stopped ⟨h, runs⟩
    rw [if_neg (by omega), Nat.sub_eq_zero_of_le (by omega), ← zero]

/-- The loss of a record that has just been replaced. -/
theorem State.record?_lose_put {s : State} {id : Nat} {r : Record} (h : s.record? id = some r) (q : Record)
    (reason : LossReason) : ((s.put id q).lose reason id).record? id =
      some (lostRecord s.params.holdOffBase s.si.markerCount reason q) := by
  rw [State.record?_lose, State.record?_put_self h]
  rfl

/-- One of two answers to a request, where there is a request. -/
theorem either_told {asked : Prop} {T : Int × TState → Prop} {a b : Int × TState}
    (h : asked → ∃ c, (c = a ∨ c = b) ∧ T c) : (asked → T a) ∨ (asked → T b) := by
  by_cases hc : asked
  · obtain ⟨c, rfl | rfl, told⟩ := h hc
    · exact .inl fun _ => told
    · exact .inr fun _ => told
  · exact .inl fun h => absurd h hc

section
variable {s : State} {id : Nat} {r : Record} (sound : s.WaitSound) (fresh : s.ot.lostNow = []) (hr : s.record? id = some r)
  (frame : FrameNumber) (tail : List Byte)
include sound fresh hr

/-- A record neither committed nor waiting: cancel resolution and then the hold-off (R65, R70). -/
theorem State.afterMarker_of_idle (idle : (RecordView.start r).idle) :
    (s.afterMarker frame tail).record? id = some (((RecordView.start r).cancelled s.params.holdOffBase
      (s.si.markerCount + 1)).heldOff (s.si.markerCount + 1)).record ∧
    (r.cancelReq = true →
      (s.afterMarker frame tail).cancelTold frame id (if cancelTooLate r.state then 1 else 0) r.state) := by
  obtain ⟨w, ⟨-, reach⟩, record, told⟩ := State.afterMarker_shows (tail := tail) (frame := frame) sound fresh hr
    (RecordView.kept_idle s.params (s.si.markerCount + 1) _) ⟨idle, rfl⟩
  have unvisited := RecordView.onProbation_of_not_committed
    ((idle.cancelled s.params.holdOffBase (s.si.markerCount + 1)).heldOff (s.si.markerCount + 1)).1
  have final : w = ((RecordView.start r).cancelled s.params.holdOffBase (s.si.markerCount + 1)).heldOff
      (s.si.markerCount + 1) := reach.trans unvisited
  subst final
  exact ⟨record, fun hc => told _ (RecordView.answer_cancelled_start _ _ hc)⟩

/-- A record in a state a cancel request gives up, where nothing else reaches it (R70). -/
theorem State.afterMarker_of_reentry (hst : r.state = .polling ∨ r.state = .ranging) (ht : r.confirmTimer = none) :
    (s.afterMarker frame tail).record? id = some (if r.cancelReq = true then
      lostRecord s.params.holdOffBase (s.si.markerCount + 1) .cancelled { r with cancelReq := false } else r) ∧
    (r.cancelReq = true → (s.afterMarker frame tail).cancelTold frame id 0 r.state) := by
  have idle : (RecordView.start r).idle := by rcases hst with h | h <;> exact ⟨by rw [RecordView.start, h]; rfl,
    by rw [RecordView.start, h]; rfl, ht⟩
  have cancels : cancellable r.state = true := (cancellable_iff _).2 (by tauto)
  obtain ⟨record, told⟩ := State.afterMarker_of_idle sound fresh hr frame tail idle
  refine ⟨?_, by simpa [cancelTooLate, cancels] using told⟩
  rw [record]
  by_cases hc : r.cancelReq = true
  · rw [RecordView.heldOff_of_noted (by rw [RecordView.lostNow_cancelled_start, hc, cancels]; rfl),
      RecordView.record_cancelled_start, if_pos ⟨hc, cancels⟩, if_pos hc]
  · have away : (RecordView.start r).record.state ≠ .lost := by rcases hst with h | h <;> simp [RecordView.start, h]
    rw [RecordView.cancelled_start_of_not _ _ (by simpa using hc), RecordView.heldOff_of_not_lost away, if_neg hc]
    rfl

/-- A record that no cancel request reaches: the hold-off alone counts (R65). -/
theorem State.afterMarker_of_rest (hst : r.state = .held ∨ r.state = .lost) (ht : r.confirmTimer = none) :
    (s.afterMarker frame tail).record? id = some (holdOffVisit (s.si.markerCount + 1) { r with cancelReq := false }) ∧
    (r.cancelReq = true → (s.afterMarker frame tail).cancelTold frame id (if r.state = .lost then 0 else 1) r.state) := by
  have idle : (RecordView.start r).idle := by rcases hst with h | h <;> exact ⟨by rw [RecordView.start, h]; rfl,
    by rw [RecordView.start, h]; rfl, ht⟩
  have stays : cancellable r.state = false := by rcases hst with h | h <;> rw [h] <;> rfl
  obtain ⟨record, told⟩ := State.afterMarker_of_idle sound fresh hr frame tail idle
  refine ⟨?_, ?_⟩
  · rw [record, RecordView.heldOff, RecordView.lostNow_cancelled_start, RecordView.record_cancelled_start, stays]
    simp
  · rcases hst with h | h <;> simpa [h, cancelTooLate, cancellable] using told

/-- A waiting record: as cancel resolution leaves it, or admitted (R70, R134). -/
theorem State.afterMarker_of_waiting (hw : r.state.waiting = true) (ht : r.confirmTimer = none) :
    ((s.afterMarker frame tail).record? id =
        some ((RecordView.start r).cancelled s.params.holdOffBase (s.si.markerCount + 1)).record ∧
      (r.cancelReq = true →
        (s.afterMarker frame tail).cancelTold frame id (if cancelTooLate r.state then 1 else 0) r.state)) ∨
    ((s.afterMarker frame tail).stateOf id = some .confirming ∧
      (r.cancelReq = true → ∃ a, RecordView.admittedAnswer r.state a ∧
        (s.afterMarker frame tail).cancelTold frame id a.1 a.2)) := by
  obtain ⟨w, law, record, told⟩ := State.afterMarker_shows (tail := tail) (frame := frame) sound fresh hr
    (RecordView.kept_waiting s.params (s.si.markerCount + 1) hw ht) (.inl rfl)
  rcases law with rfl | ⟨hst, -, asked⟩
  · exact .inl ⟨record, fun hc => told _ (RecordView.answer_cancelled_start _ _ hc)⟩
  · refine .inr ⟨?_, asked.tells told⟩
    rw [State.stateOf, record, Option.map_some, hst]

/-- A terminal in ADMIT_WAIT is admitted, or its cancel request has given its re-entry up. -/
theorem State.afterMarker_of_admitWait (hst : r.state = .admitWait) (ht : r.confirmTimer = none) :
    ((s.afterMarker frame tail).stateOf id = some .confirming ∧
      (r.cancelReq = true → (s.afterMarker frame tail).cancelTold frame id 1 .confirming)) ∨
    ((r.cancelReq = true → (s.afterMarker frame tail).cancelTold frame id 0 .admitWait) ∧
      (s.afterMarker frame tail).record? id = some (if r.cancelReq = true then
        lostRecord s.params.holdOffBase (s.si.markerCount + 1) .cancelled { r with cancelReq := false } else r)) := by
  rcases State.afterMarker_of_waiting sound fresh hr frame tail (by rw [hst]; rfl) ht with
    ⟨record, answer⟩ | ⟨confirming, answer⟩
  · refine .inr ⟨by simpa [hst, cancelTooLate, cancellable] using answer, record.trans ?_⟩
    rw [RecordView.record_cancelled_start]
    by_cases hc : r.cancelReq = true
    · rw [if_pos ⟨hc, by rw [hst]; rfl⟩, if_pos hc]
    · rw [if_neg fun h => hc h.1, if_neg hc, ← Bool.eq_false_iff.2 hc]
  · refine .inl ⟨confirming, fun hc => ?_⟩
    obtain ⟨a, rfl | ⟨shed, -⟩, answered⟩ := answer hc
    · exact answered
    · rw [hst] at shed
      cases shed

/-- A SHED terminal is admitted, or keeps waiting with its cancel request cleared. -/
theorem State.afterMarker_of_shed (hst : r.state = .shed) (ht : r.confirmTimer = none) :
    ((s.afterMarker frame tail).stateOf id = some .confirming ∧
      ((r.cancelReq = true → (s.afterMarker frame tail).cancelTold frame id 1 .shed) ∨
        (r.cancelReq = true → (s.afterMarker frame tail).cancelTold frame id 1 .confirming))) ∨
    ((s.afterMarker frame tail).record? id = some { r with cancelReq := false } ∧
      (r.cancelReq = true → (s.afterMarker frame tail).cancelTold frame id 1 .shed)) := by
  rcases State.afterMarker_of_waiting sound fresh hr frame tail (by rw [hst]; rfl) ht with
    ⟨record, answer⟩ | ⟨confirming, answer⟩
  · refine .inr ⟨record.trans ?_, by simpa [hst, cancelTooLate, cancellable] using answer⟩
    rw [RecordView.record_cancelled_start, if_neg fun h => by rw [hst] at h; exact absurd h.2 (by decide)]
  · exact .inl ⟨confirming, either_told (T := fun a => (s.afterMarker frame tail).cancelTold frame id a.1 a.2)
      (a := (1, .shed)) (b := (1, .confirming)) fun hc =>
        (answer hc).imp fun a ha => ⟨ha.1.symm.imp_left And.right, ha.2⟩⟩

/-- A committed record whose confirm timer does not fail: its timers counted, or shed (R66, R127, R130). -/
theorem State.afterMarker_of_committed (hc : r.state.committed = true) (hf : ¬ confirmFails s.params r) :
    ((s.afterMarker frame tail).record? id =
        some (probationVisit (confirmVisited s.params (s.si.markerCount + 1) { r with cancelReq := false })) ∧
      (r.cancelReq = true → (s.afterMarker frame tail).cancelTold frame id 1 r.state)) ∨
    ((s.afterMarker frame tail).stateOf id = some .shed ∧
      ((r.cancelReq = true → (s.afterMarker frame tail).cancelTold frame id 1 r.state) ∨
        (r.cancelReq = true → (s.afterMarker frame tail).cancelTold frame id 1 .shed))) := by
  obtain ⟨w, law, record, told⟩ := State.afterMarker_shows (tail := tail) (frame := frame) sound fresh hr
    (RecordView.kept_committed s.params (s.si.markerCount + 1) hc hf) (.inl ⟨rfl, RecordView.start_answered r _⟩)
  rcases law with ⟨final, asked⟩ | ⟨hst, -, -, asked⟩
  · refine .inl ⟨?_, fun hreq => ?_⟩
    · rw [record, final]
      simp [RecordView.carried]
    · obtain ⟨a, rfl, answer⟩ := asked.tells told hreq
      exact answer
  · refine .inr ⟨?_, either_told (T := fun a => (s.afterMarker frame tail).cancelTold frame id a.1 a.2) (asked.tells told)⟩
    rw [State.stateOf, record, Option.map_some, hst]

/-- A record whose confirm timer fails has lost its confirmation (R131). -/
theorem State.afterMarker_of_failing (hst : r.state = .confirming) (hf : confirmFails s.params r) :
    (∃ q, (s.afterMarker frame tail).record? id = some q ∧ RecordView.ConfirmLost r [] q) ∧
      ((r.cancelReq = true → (s.afterMarker frame tail).cancelTold frame id 1 .confirming) ∨
        (r.cancelReq = true → (s.afterMarker frame tail).cancelTold frame id 0 .lost)) := by
  obtain ⟨w, law, record, told⟩ := State.afterMarker_shows (tail := tail) (frame := frame) sound fresh hr
    (RecordView.kept_failing s.params (s.si.markerCount + 1) hf)
    (.inl ⟨by decide, hst, rfl, rfl, rfl, RecordView.start_answered r _⟩)
  rcases law with ⟨hy, -⟩ | ⟨-, lost, asked⟩
  · cases hy
  · exact ⟨⟨_, record, lost⟩, either_told (T := fun a => (s.afterMarker frame tail).cancelTold frame id a.1 a.2)
      (asked.tells told)⟩

end

/-- Settles O49: a LOST record by its hold-off alone, and each state by what the interleavings can make of it. -/
theorem eachRecordAtMarker : Obligations.EachRecordAtMarker := by
  refine ⟨fun s frame tail id r hs hm hrec hwait fresh hr hst unasked ht => ?_,
    fun s frame tail id r hs hm ledger fields fresh _ hr => ?_⟩
  · refine ⟨_, exec_frameMarker_of_run hs hm frame tail, ?_⟩
    have record := (State.afterMarker_of_rest (State.waitSound_of_sound hrec hwait) fresh hr frame tail (.inr hst) ht).1
    rw [← unasked] at record
    exact record.trans (congrArg some (if_pos hst))
  · refine ⟨_, exec_frameMarker_of_run hs hm frame tail, ?_⟩
    intro cleared cancelled counted timed expires told
    have sound := State.waitSound_of_ledgerSound ledger hm
    obtain ⟨-, -, -, -, timers⟩ := (fields.2 _ (State.record?_mem hr)).2
    have untimed (h : r.state ≠ .confirming) : r.confirmTimer = none := (timers h).1
    have tells {late : Int} {st : TState} (h : r.cancelReq = true → (s.afterMarker frame tail).cancelTold frame id late st) :
        told late st := fun hc hmask => h hc (by rwa [State.afterMarker_mask])
    have lost : cancelled = some (lostRecord s.params.holdOffBase (s.si.markerCount + 1) .cancelled cleared) :=
      State.record?_lose_put (s := { s with si := { s.si with markerCount := s.si.markerCount + 1 } }) hr cleared .cancelled
    refine ⟨fun hst => ?held, fun hst => ?lost, fun hst => ?reentry, fun hst => ?admitWait, fun hst => ?shed,
      fun hst => ?service, fun hst hf => ?confirming, fun hst hf => ?failing⟩
    case held =>
      obtain ⟨record, answer⟩ := State.afterMarker_of_rest sound fresh hr frame tail (.inl hst) (untimed (by simp [hst]))
      refine ⟨record.trans (congrArg some (if_neg (by simp [hst]))), tells ?_⟩
      simpa [hst] using answer
    case lost =>
      obtain ⟨record, answer⟩ := State.afterMarker_of_rest sound fresh hr frame tail (.inr hst) (untimed (by simp [hst]))
      refine ⟨tells ?_, record.trans (congrArg some (if_pos hst))⟩
      simpa [hst] using answer
    case reentry =>
      have away : r.state ≠ .confirming := by rcases hst with h | h <;> simp [h]
      obtain ⟨record, answer⟩ := State.afterMarker_of_reentry sound fresh hr frame tail hst (untimed away)
      refine ⟨tells answer, record.trans ?_⟩
      rw [lost]
      split <;> rfl
    case admitWait =>
      refine (State.afterMarker_of_admitWait sound fresh hr frame tail hst (untimed (by simp [hst]))).imp
        (.imp_right tells) fun ⟨answer, record⟩ => ⟨tells answer, record.trans ?_⟩
      rw [lost]
      split <;> rfl
    case shed =>
      exact (State.afterMarker_of_shed sound fresh hr frame tail hst (untimed (by simp [hst]))).imp
        (.imp_right (.imp tells tells)) (.imp_right tells)
    case service =>
      have committed : r.state.committed = true := by rcases hst with h | h <;> rw [h] <;> rfl
      have timer : r.confirmTimer = none := untimed (by rcases hst with h | h <;> simp [h])
      rcases State.afterMarker_of_committed sound fresh hr frame tail committed (by simp [confirmFails, timer]) with
        ⟨record, answer⟩ | ⟨shed, answer⟩
      · refine .inl ⟨record.trans (congrArg some ?_), tells answer⟩
        have unvisited : confirmVisited s.params (s.si.markerCount + 1) cleared = cleared := by
          simp only [confirmVisited, show cleared.confirmTimer = none from timer]
        rw [unvisited]
        exact probationVisit_of_committed committed
      · exact .inr ⟨shed, answer.imp tells tells⟩
    case confirming =>
      have committed : r.state.committed = true := by rw [hst]; rfl
      rcases State.afterMarker_of_committed sound fresh hr frame tail committed hf with ⟨record, answer⟩ | ⟨shed, answer⟩
      · refine .inl ⟨record.trans (congrArg some ?_), tells (hst ▸ answer)⟩
        have notFails : ¬ confirmFails s.params cleared := hf
        have visited : confirmVisited s.params (s.si.markerCount + 1) cleared = timed cleared := by
          rw [confirmVisited_of_not_fails notFails]
          simp only [timed]
          rcases cleared.confirmTimer <;> rfl
        have stays : (timed cleared).state.committed = true := by
          rw [← visited, confirmVisited_state notFails]
          exact committed
        rw [visited, probationVisit_of_committed stays]
      · exact .inr ⟨shed, (hst ▸ answer).imp tells tells⟩
    case failing =>
      obtain ⟨⟨q, record, confirmLost⟩, answer⟩ := State.afterMarker_of_failing sound fresh hr frame tail hst hf
      exact ⟨answer.imp tells tells, q, record, confirmLost.state.imp_right And.left, confirmLost.lastReason,
        confirmLost.losses, confirmLost.cost, confirmLost.probation, confirmLost.confirmTimer, confirmLost.message⟩

end Sys2Proof.Machine
end

section
/-! POLL reports in RUN (R83, R84, R85, R88, R93): which of them match, and what the judging of one makes of a terminal in
POLLING or in RANGING. -/

namespace Sys2Proof.Machine

open Sys2Proof

theorem answersPolls_iff (st : TState) : answersPolls st = true ↔ st = .polling ∨ st = .ranging ∨ st = .shed := by
  cases st <;> decide

/-- A report of a terminal that is not polled, or of another frame than its outstanding poll, is ignored (R83). -/
theorem State.pollReport_of_unmatched {s : State} {id : Nat} {r : Record} {frame : FrameNumber} (h : s.record? id = some r)
    (hn : ¬ (answersPolls r.state = true ∧ r.outstanding = some frame)) (select : Bool) (m : Measurement) :
    State.pollReport select s id frame m = s :=
  (State.withRecord_of_record? h _).trans (if_neg hn)

section
variable {s : State} {id : Nat} {r : Record} (hs : s.recordsSound) (h : s.record? id = some r) (m : Measurement)

include hs h

/-- The report that moves a terminal to RANGING is its first measurement (R84, R93). -/
theorem State.judgePolling_of_good (hm : m.outcome = .good) :
    s.judgePolling id m = (s.put id { r with state := .ranging, attempts := 0 }).measure id m := by
  simp only [State.judgePolling, hm, State.firstMeasurement, State.update_eq_put hs h, State.update_put hs h]

theorem State.judgePolling_of_missed (hm : m.outcome = .missed) :
    s.judgePolling id m = s.put id (missedPoll s.params s.si.markerCount r) := by
  simp only [State.judgePolling, hm, State.update_eq_put hs h]

theorem State.judgePolling_of_crcBad (hm : m.outcome = .crcBad) :
    s.judgePolling id m = s.put id { r with nextEligible := after s.si.markerCount s.params.pollBase } := by
  simp only [State.judgePolling, hm, State.update_eq_put hs h]

variable (select : Bool) {frame : FrameNumber} (ho : r.outstanding = some frame)

include ho

theorem State.pollReport_of_polling (hst : r.state = .polling) :
    State.pollReport select s id frame m = (s.put id (clearPoll r)).judgePolling id m := by
  have state : (s.put id (clearPoll r)).stateOf id = some .polling :=
    (congrArg (Option.map _) (State.record?_put_self h _)).trans (congrArg some hst)
  rw [State.pollReport_of_matched h ((answersPolls_iff _).2 (.inl hst)) ho, State.update_eq_put hs h]
  simp only [State.judgePoll, state]

theorem State.pollReport_of_ranging (hst : r.state = .ranging) :
    State.pollReport select s id frame m = (s.put id (clearPoll r)).measure id m := by
  have state : (s.put id (clearPoll r)).stateOf id = some .ranging :=
    (congrArg (Option.map _) (State.record?_put_self h _)).trans (congrArg some hst)
  rw [State.pollReport_of_matched h ((answersPolls_iff _).2 (.inr (.inl hst))) ho, State.update_eq_put hs h]
  simp only [State.judgePoll, state]

end

/-- Settles O37: the record, the match, and the judging by the state and the outcome. -/
theorem pollReportsAreMatched : Obligations.PollReportsAreMatched := by
  refine ⟨fun _ => rfl, fun s b hs hsound => ?_⟩
  intro id now
  rw [exec_pollReport hs]
  refine ⟨fun h => congrArg _ (State.withRecord_vacant h _), fun r h => ⟨fun hn => ?_, fun ho => ?_⟩⟩
  · rw [State.pollReport_of_unmatched h]
    rintro ⟨answers, matched⟩
    rcases hn with ⟨hp, hr, hd⟩ | hn
    · rcases (answersPolls_iff _).1 answers with hst | hst | hst
      exacts [hp hst, hr hst, hd hst]
    · exact hn matched
  · have known : (s.put id (clearPoll r)).record? id = some (clearPoll r) := State.record?_put_self h _
    have sound : (s.put id (clearPoll r)).recordsSound := s.recordsSound_put hsound id _
    refine ⟨fun hst hm => ?_, fun hst hm => ?_, fun hst hm => ?_, fun hst => ?_⟩
    · rw [State.pollReport_of_polling hsound h _ _ ho hst, State.judgePolling_of_missed sound known _ hm, State.put_put]
      rfl
    · rw [State.pollReport_of_polling hsound h _ _ ho hst, State.judgePolling_of_crcBad sound known _ hm, State.put_put]
      rfl
    · rw [State.pollReport_of_polling hsound h _ _ ho hst, State.judgePolling_of_good sound known _ hm, State.put_put]
      rfl
    · rw [State.pollReport_of_ranging hsound h _ _ ho hst]
      rfl

end Sys2Proof.Machine
end

section
/-! The stages of the map-arrival operation (R74 to R81): the entries, the reclaimed spans, the candidates, the positions and
the polls that pair them. -/

namespace Sys2Proof.Machine

open Sys2Proof

/-! ## Slots -/

/-- Two runs of slots meet exactly where they share a slot: the later of their starts. -/
theorem slotsMeet_iff (a m b n : Nat) :
    slotsMeet a m b n = true ↔ ∃ slot, (a ≤ slot ∧ slot < a + m) ∧ b ≤ slot ∧ slot < b + n := by
  simp only [slotsMeet, Bool.and_eq_true, decide_eq_true_eq]
  constructor
  · exact fun h => ⟨max a b, by omega⟩
  · rintro ⟨slot, h⟩
    omega

theorem slotsMeet_eq_false_iff (a m b n : Nat) :
    slotsMeet a m b n = false ↔ ∀ slot, ¬ ((a ≤ slot ∧ slot < a + m) ∧ b ≤ slot ∧ slot < b + n) := by
  rw [← Bool.not_eq_true, slotsMeet_iff, not_exists]

theorem slotsMeet_comm (a m b n : Nat) : slotsMeet a m b n = slotsMeet b n a m := by
  rw [Bool.eq_iff_iff, slotsMeet_iff, slotsMeet_iff]
  simp only [and_comm]

/-! ## Entries (R74, R75) -/

theorem overlapsRegion_iff (p : Params) (e : MapEntry) : overlapsRegion p e = true ↔ ∃ slot,
    (p.regionStart ≤ slot ∧ slot < p.regionStart + p.pMin * p.pollLength) ∧
      e.start.toNat ≤ slot ∧ slot < e.start.toNat + e.length.toNat := by
  rw [overlapsRegion, slotsMeet_comm, slotsMeet_iff, regionSize]

theorem State.stateOf_committed_iff (s : State) (id : Nat) :
    ((s.stateOf id).map TState.committed).getD false = true ↔
      ∃ r, s.record? id = some r ∧ (r.state = .confirming ∨ r.state = .inService ∨ r.state = .fading) := by
  rw [State.stateOf]
  cases s.record? id with
  | none => simp
  | some r => simp [TState.committed_iff]

/-- A grant is kept for a committed terminal, a POLL entry never, and any other entry always (R75). -/
theorem State.keepsEntry_iff (s : State) (e : MapEntry) : s.keepsEntry e = true ↔
    e.kind ≠ 0x02 ∧ (e.kind = 0x00 ∨ e.kind = 0x01 →
      ∃ r, s.record? e.id.toNat = some r ∧ (r.state = .confirming ∨ r.state = .inService ∨ r.state = .fading)) := by
  rw [← s.stateOf_committed_iff, State.keepsEntry]
  have code (v : Byte) : e.kind = v ↔ e.kind.toNat = v.toNat := BitVec.toNat_inj.symm
  split
  · next hk => simp [code, hk]
  · next hk => simp [code, hk]
  · next hk => simp [code, hk]
  · next h0 h1 h2 =>
    have other : e.kind ≠ 0x02 ∧ ¬ (e.kind = 0x00 ∨ e.kind = 0x01) :=
      ⟨mt (code _).1 h2, not_or.2 ⟨mt (code _).1 h0, mt (code _).1 h1⟩⟩
    exact iff_of_true rfl ⟨other.1, fun grant => absurd grant other.2⟩

theorem State.mem_keptEntries {s : State} {es : List MapEntry} {e : MapEntry} :
    e ∈ s.keptEntries es ↔ e ∈ es ∧ overlapsRegion s.params e = false ∧ s.keepsEntry e = true := by
  simp only [State.keptEntries, List.mem_filter, Bool.and_eq_true, Bool.not_eq_true']

theorem State.keptEntries_eq (s : State) (es : List MapEntry) :
    s.keptEntries es = (es.filter fun e => !overlapsRegion s.params e).filter s.keepsEntry := by
  simp only [State.keptEntries, List.filter_filter, Bool.and_comm]

theorem State.strippedEntries_eq (s : State) (es : List MapEntry) :
    s.strippedEntries es = (es.filter fun e => !overlapsRegion s.params e).filter fun e => !s.keepsEntry e := by
  simp only [State.strippedEntries, List.filter_filter, Bool.and_comm]

/-! ## Reclaimed spans (R76) -/

theorem insertSpan_ordered (x : Nat × Nat) {l : List (Nat × Nat)} (h : l.Pairwise fun a b => a.1 ≤ b.1) :
    (insertSpan x l).Pairwise fun a b => a.1 ≤ b.1 := by
  induction l with
  | nil => exact List.pairwise_singleton _ _
  | cons y l ih =>
    obtain ⟨least, rest⟩ := List.pairwise_cons.1 h
    rw [insertSpan]
    split
    · next hx => exact List.pairwise_cons.2 ⟨List.forall_mem_cons.2 ⟨hx, fun z hz => hx.trans (least z hz)⟩, h⟩
    · next hx =>
      refine List.pairwise_cons.2 ⟨fun z hz => ?_, ih rest⟩
      rcases List.mem_cons.1 ((insertSpan_perm x l).mem_iff.1 hz) with rfl | hz
      · exact (Nat.not_le.1 hx).le
      · exact least z hz

theorem sortSpans_ordered (l : List (Nat × Nat)) : (l.foldr insertSpan []).Pairwise fun a b => a.1 ≤ b.1 := by
  induction l with
  | nil => exact .nil
  | cons x l ih => exact insertSpan_ordered x ih

/-- A span passes only spans of another start. -/
theorem filter_insertSpan (start : Nat) (x : Nat × Nat) (l : List (Nat × Nat)) :
    (insertSpan x l).filter (·.1 = start) = (x :: l).filter (·.1 = start) := by
  induction l with
  | nil => rfl
  | cons y l ih =>
    rw [insertSpan]
    split
    · rfl
    · next hx =>
      rw [List.filter_cons, ih]
      by_cases hs : x.1 = start
      · have passed : y.1 ≠ start := by omega
        simp [hs, passed]
      · simp [List.filter_cons, hs]

theorem filter_sortSpans (start : Nat) (l : List (Nat × Nat)) :
    (l.foldr insertSpan []).filter (·.1 = start) = l.filter (·.1 = start) := by
  induction l with
  | nil => rfl
  | cons x l ih => rw [List.foldr_cons, filter_insertSpan, List.filter_cons, List.filter_cons, ih]

/-! ## Candidates (R77) -/

section
variable {s : State} (hs : s.recordsSound)

include hs

theorem State.mem_inPriority_candidate (own : Record → Bool) (id : Nat) : id ∈ s.inPriority (candidate own) ↔
    ∃ r, s.record? id = some r ∧ r.outstanding = none ∧ own r = true := by
  simp only [State.mem_inPriority hs, candidate, Bool.and_eq_true, Option.isNone_iff_eq_none]

theorem State.mem_rangingCandidates (id : Nat) : id ∈ s.inPriority (candidate fun r => r.state == .ranging) ↔
    ∃ r, s.record? id = some r ∧ r.state = .ranging ∧ r.outstanding = none := by
  simp only [State.mem_inPriority_candidate hs, beq_iff_eq, and_comm]

/-- The groups that wait for a marker count: POLLING for its next poll, SHED for its keepalive (R77). -/
theorem State.mem_dueCandidates (st : TState) (since : Record → MarkerCount) (id : Nat) :
    id ∈ s.inPriority (candidate fun r => r.state == st && due s.si.markerCount (since r)) ↔
      ∃ r, s.record? id = some r ∧ r.state = st ∧ r.outstanding = none ∧
        (s.si.markerCount - since r).toNat < 2 ^ 31 := by
  simp only [State.mem_inPriority_candidate hs, Bool.and_eq_true, beq_iff_eq, due, decide_eq_true_eq,
    and_left_comm (a := Record.outstanding _ = none)]

end

/-! ## Positions (R78, R79) -/

theorem pieceFree_iff (p : Params) (kept : List MapEntry) (listed : List Nat) (piece : Nat) :
    pieceFree p kept listed piece = true ↔ piece ≤ p.latestPollStart ∧
      (∀ e ∈ kept, slotsMeet piece p.pollLength e.start.toNat e.length.toNat = false) ∧
        ∀ q ∈ listed, slotsMeet piece p.pollLength q p.pollLength = false := by
  simp only [pieceFree, Bool.and_eq_true, decide_eq_true_eq, List.all_eq_true, Bool.not_eq_true', and_assoc]

/-- A free piece, slot by slot. -/
theorem pieceFree_iff_slots (p : Params) (kept : List MapEntry) (listed : List Nat) (piece : Nat) :
    pieceFree p kept listed piece = true ↔ piece ≤ p.latestPollStart ∧
      ∀ slot, piece ≤ slot ∧ slot < piece + p.pollLength →
        (∀ e ∈ kept, ¬ (e.start.toNat ≤ slot ∧ slot < e.start.toNat + e.length.toNat)) ∧
          ∀ q ∈ listed, ¬ (q ≤ slot ∧ slot < q + p.pollLength) := by
  simp only [pieceFree_iff, slotsMeet_eq_false_iff]
  refine and_congr_right fun _ => ⟨?_, ?_⟩
  · exact fun ⟨entries, polls⟩ slot hp =>
      ⟨fun e he hc => entries e he slot ⟨hp, hc⟩, fun q hq hc => polls q hq slot ⟨hp, hc⟩⟩
  · exact fun free => ⟨fun e he slot ⟨hp, hc⟩ => (free slot hp).1 e he hc, fun q hq slot ⟨hp, hc⟩ => (free slot hp).2 q hq hc⟩

/-! ## Polls (R80, R81) -/

/-- The candidates are paired with the usable positions until one of the two, or the room, runs out. -/
theorem pairPolls_eq (latest : Nat) (positions : List Nat) (room : Nat) (ids : List Nat) :
    pairPolls latest positions room ids = (ids.zip (positions.filter (· ≤ latest))).take room := by
  induction positions generalizing room ids with
  | nil => simp [pairPolls]
  | cons position positions ih =>
    cases ids with
    | nil => simp [pairPolls]
    | cons id ids =>
      cases room with
      | zero => simp [pairPolls]
      | succ room =>
        by_cases late : latest < position
        · simp [pairPolls, late, ih]
        · simp [pairPolls, late, ih, Nat.not_lt.1 late]

theorem State.placements_eq (s : State) (es : List MapEntry) : s.placements es =
    (s.candidates.zip ((s.positions es).filter (· ≤ s.params.latestPollStart))).take (128 - (s.keptEntries es).length) :=
  pairPolls_eq ..

/-- Settles O44: each stage by its own lemma above. -/
theorem mapEditListsAndPairs : Obligations.MapEditListsAndPairs := by
  intro s es hs _ p kept stripped spans covers reserved pieces extra span
  refine ⟨fun e => ⟨overlapsRegion_iff p e, s.keepsEntry_iff e⟩, s.keptEntries_eq es, s.strippedEntries_eq es,
    ⟨sortSpans_ordered _, fun start => filter_sortSpans start _⟩, ?candidates, pieceFree_iff_slots p kept, rfl,
    s.placements_eq es⟩
  case candidates =>
    exact ⟨_, _, _, (List.append_assoc ..).symm, State.inPriority_ordered hs _, State.inPriority_ordered hs _,
      State.inPriority_ordered hs _, State.mem_rangingCandidates hs, State.mem_dueCandidates hs _ _,
      State.mem_dueCandidates hs _ _⟩

end Sys2Proof.Machine
end

section
/-! The laws of an edited map (R74, R75, R77 to R81): its polls stand apart from one another and from the kept entries, at
most one for each candidate. -/

namespace Sys2Proof.Machine

open Sys2Proof

/-! ## Candidates -/

section
variable {s : State} (hs : s.recordsSound)

include hs

theorem State.mem_candidates {id : Nat} : id ∈ s.candidates ↔ ∃ r, s.record? id = some r ∧ r.outstanding = none ∧
    (r.state = .ranging ∨ (r.state = .polling ∧ (s.si.markerCount - r.nextEligible).toNat < 2 ^ 31) ∨
      (r.state = .shed ∧ (s.si.markerCount - r.keepaliveDue).toNat < 2 ^ 31)) := by
  simp only [State.candidates, List.mem_append, State.mem_rangingCandidates hs, State.mem_dueCandidates hs, ← exists_or]
  exact exists_congr fun r => by tauto

theorem State.inPriority_nodup (p : Record → Bool) : (s.inPriority p).Nodup :=
  (State.inPriority_ordered hs p).imp fun {a b} first same => by
    rw [same, s.outranks_irrefl] at first
    cases first

/-- Groups whose conditions no record meets at once share no terminal. -/
theorem State.disjoint_inPriority {p q : Record → Bool} (h : ∀ r, p r = true → q r = false) :
    (s.inPriority p).Disjoint (s.inPriority q) := by
  intro id first second
  obtain ⟨r, hr, hp⟩ := (State.mem_inPriority hs p id).1 first
  obtain ⟨r', hr', hq⟩ := (State.mem_inPriority hs q id).1 second
  obtain rfl : r = r' := Option.some.inj (hr.symm.trans hr')
  exact Bool.eq_false_iff.1 (h r hp) hq

/-- No terminal is a candidate twice: the groups are of different states (R77). -/
theorem State.candidates_nodup : s.candidates.Nodup := by
  refine List.nodup_append'.2 ⟨State.inPriority_nodup hs _, List.nodup_append'.2 ⟨State.inPriority_nodup hs _,
    State.inPriority_nodup hs _, State.disjoint_inPriority hs fun r polling => ?_⟩,
    List.disjoint_append_right.2 ⟨State.disjoint_inPriority hs fun r ranging => ?_,
      State.disjoint_inPriority hs fun r ranging => ?_⟩⟩ <;> simp_all [candidate]

/-- A candidate's ID fits its byte in an entry (R19). -/
theorem State.byteOf_candidate {id : Nat} (h : id ∈ s.candidates) : (byteOf id).toNat = id := by
  obtain ⟨r, hr, -⟩ := (State.mem_candidates hs).1 h
  have bound : id ≤ 255 := (hs.2 id (List.mem_map.2 ⟨_, State.record?_mem hr, rfl⟩)).2
  rw [byteOf, BitVec.toNat_ofNat]
  omega

end

/-! ## Positions -/

/-- What the extra positions of a map keep as they are listed: their number, that no two positions meet, reserved ones
included, and that they meet no kept entry (R79). -/
structure ExtraSound (p : Params) (kept : List MapEntry) (extra : List Nat) : Prop where
  few : extra.length ≤ p.pExtraMax
  apart : (reservedPositions p ++ extra).Pairwise fun a b => slotsMeet a p.pollLength b p.pollLength = false
  clear : ∀ q ∈ extra, ∀ e ∈ kept, slotsMeet q p.pollLength e.start.toNat e.length.toNat = false

theorem reservedPositions_apart (p : Params) :
    (reservedPositions p).Pairwise fun a b => slotsMeet a p.pollLength b p.pollLength = false := by
  refine List.pairwise_map.2 (List.pairwise_lt_range.imp fun {i j} later => ?_)
  have next : (i + 1) * p.pollLength ≤ j * p.pollLength := Nat.mul_le_mul_right _ later
  rw [Nat.succ_mul] at next
  exact (slotsMeet_eq_false_iff ..).2 fun slot h => by omega

/-- A reserved position lies within the reserved region (R78). -/
theorem slotsMeet_reserved {p : Params} {q : Nat} (h : q ∈ reservedPositions p) {e : MapEntry}
    (he : overlapsRegion p e = false) : slotsMeet q p.pollLength e.start.toNat e.length.toNat = false := by
  obtain ⟨i, hi, rfl⟩ := List.mem_map.1 h
  have inside : (i + 1) * p.pollLength ≤ p.pMin * p.pollLength := Nat.mul_le_mul_right _ (List.mem_range.1 hi)
  rw [Nat.succ_mul] at inside
  refine (slotsMeet_eq_false_iff ..).2 fun slot ⟨piece, entry⟩ => ?_
  exact Bool.eq_false_iff.1 he ((overlapsRegion_iff p e).2 ⟨slot, by omega, entry⟩)

theorem ExtraSound.list {p : Params} {kept : List MapEntry} {extra : List Nat} (h : ExtraSound p kept extra) {piece : Nat}
    (room : extra.length < p.pExtraMax) (free : pieceFree p kept (reservedPositions p ++ extra) piece = true) :
    ExtraSound p kept (extra ++ [piece]) := by
  obtain ⟨-, entries, polls⟩ := (pieceFree_iff ..).1 free
  refine ⟨?_, ?_, ?_⟩
  · rw [List.length_append]
    exact room
  · rw [← List.append_assoc]
    refine List.pairwise_append.2 ⟨h.apart, List.pairwise_singleton _ _, fun q hq x hx => ?_⟩
    rw [List.mem_singleton.1 hx, slotsMeet_comm]
    exact polls q hq
  · intro q hq
    rcases List.mem_append.1 hq with hq | hq
    · exact h.clear q hq
    · rw [List.mem_singleton.1 hq]
      exact entries

theorem extraPositions_sound (p : Params) (kept : List MapEntry) (pieces : List Nat) :
    ExtraSound p kept (extraPositions p kept pieces) := by
  have start : ExtraSound p kept [] :=
    ⟨Nat.zero_le _, (List.append_nil (reservedPositions p)).symm ▸ reservedPositions_apart p, by simp⟩
  refine List.foldlRecOn pieces _ start fun extra h piece _ => ?_
  split
  · next listed => exact h.list listed.1 listed.2
  · exact h

theorem State.positions_length_le (s : State) (es : List MapEntry) :
    (s.positions es).length ≤ s.params.pMin + s.params.pExtraMax := by
  rw [State.positions, List.length_append, reservedPositions, List.length_map, List.length_range]
  exact Nat.add_le_add_left (extraPositions_sound ..).few _

/-- No position meets a kept entry (R74, R79). -/
theorem State.positions_clear {s : State} {es : List MapEntry} {q : Nat} (h : q ∈ s.positions es) {e : MapEntry}
    (he : e ∈ s.keptEntries es) : slotsMeet q s.params.pollLength e.start.toNat e.length.toNat = false := by
  obtain ⟨-, outside, -⟩ := State.mem_keptEntries.1 he
  rcases List.mem_append.1 h with reserved | extra
  · exact slotsMeet_reserved reserved outside
  · exact (extraPositions_sound ..).clear q extra e he

/-! ## Placed polls -/

theorem map_fst_zip_prefix {α β : Type} (l : List α) (m : List β) : (l.zip m).map Prod.fst <+: l := by
  rw [List.zip_eq_zip_take_min, List.map_fst_zip (by simp)]
  exact List.take_prefix _ _

theorem map_snd_zip_prefix {α β : Type} (l : List α) (m : List β) : (l.zip m).map Prod.snd <+: m := by
  rw [List.zip_eq_zip_take_min, List.map_snd_zip (by simp)]
  exact List.take_prefix _ _

/-- The terminals polled are the first candidates (R80). -/
theorem State.placements_ids (s : State) (es : List MapEntry) : (s.placements es).map (·.1) <+: s.candidates := by
  rw [State.placements_eq, List.map_take]
  exact (List.take_prefix _ _).trans (map_fst_zip_prefix _ _)

/-- The polls start at the first usable positions (R80). -/
theorem State.placements_starts (s : State) (es : List MapEntry) :
    (s.placements es).map (·.2) <+: (s.positions es).filter (· ≤ s.params.latestPollStart) := by
  rw [State.placements_eq, List.map_take]
  exact (List.take_prefix _ _).trans (map_snd_zip_prefix _ _)

/-- A placed poll stands at a position, not after the latest poll start (R80). -/
theorem State.placed_at {s : State} {es : List MapEntry} {poll : Nat × Nat} (h : poll ∈ s.placements es) :
    poll.2 ∈ s.positions es ∧ poll.2 ≤ s.params.latestPollStart := by
  simpa using (s.placements_starts es).subset (List.mem_map_of_mem h)

theorem State.placements_apart (s : State) (es : List MapEntry) : (s.placements es).Pairwise fun a b =>
    slotsMeet a.2 s.params.pollLength b.2 s.params.pollLength = false :=
  List.pairwise_map.1 ((extraPositions_sound ..).apart.sublist
    ((s.placements_starts es).sublist.trans List.filter_sublist))

/-- The slots of a placed poll fit the fields of its entry (R171, 12.2). -/
theorem pollEntry_slots {p : Params} (hp : failingField p.values = none) {poll : Nat × Nat}
    (h : poll.2 ≤ p.latestPollStart) :
    (pollEntry p poll).start.toNat = poll.2 ∧ (pollEntry p poll).length.toNat = p.pollLength := by
  have latest : p.latestPollStart ≤ 4095 :=
    (mem_range_of_failingField hp (p.latestPollStart, 0, 4095) (by simp [Params.values, paramRanges])).2
  have length : p.pollLength ≤ 16 :=
    (mem_range_of_failingField hp (p.pollLength, 1, 16) (by simp [Params.values, paramRanges])).2
  simp only [pollEntry, BitVec.toNat_ofNat]
  omega

/-- Settles O45: the polls by the candidates and the positions they pair, the kept entries by the strip. -/
theorem editedMapLaws : Obligations.EditedMapLaws := by
  intro s es hs hp few kept polls apart
  have fits (poll : Nat × Nat) (h : poll ∈ s.placements es) := pollEntry_slots hp (State.placed_at h).2
  have candidate (poll : Nat × Nat) (h : poll ∈ s.placements es) : poll.1 ∈ s.candidates :=
    (s.placements_ids es).subset (List.mem_map_of_mem h)
  have keptFew : kept.length ≤ 128 := (List.length_filter_le ..).trans few
  refine ⟨rfl, List.filter_sublist, ?room, ?kinds, ?region, ?once, ?number, s.placements_ids es, ?polls, ?apart, ?clear⟩
  case room =>
    have placed : (s.placements es).length ≤ 128 - kept.length := by
      rw [State.placements_eq]
      exact List.length_take_le ..
    rw [List.length_append, List.length_map]
    omega
  case kinds =>
    intro e he
    obtain ⟨-, -, keeps⟩ := State.mem_keptEntries.1 he
    exact (s.keepsEntry_iff e).1 keeps
  case region =>
    intro e he slot low high inside
    obtain ⟨-, outside, -⟩ := State.mem_keptEntries.1 he
    exact Bool.eq_false_iff.1 outside ((overlapsRegion_iff _ e).2 ⟨slot, ⟨low, high⟩, inside⟩)
  case once =>
    have ids : ((s.placements es).map (·.1)).Nodup := (State.candidates_nodup hs).sublist (s.placements_ids es).sublist
    rw [List.map_map, List.Nodup, List.pairwise_map]
    refine (List.pairwise_map.1 ids).imp_of_mem fun {a b} ha hb apart same => apart ?_
    rw [← State.byteOf_candidate hs (candidate a ha), ← State.byteOf_candidate hs (candidate b hb)]
    exact congrArg BitVec.toNat same
  case number =>
    have starts := ((s.placements_starts es).sublist.trans List.filter_sublist).length_le
    rw [List.length_map] at starts ⊢
    exact starts.trans (s.positions_length_le es)
  case polls =>
    intro e he
    obtain ⟨poll, h, rfl⟩ := List.mem_map.1 he
    obtain ⟨start, length⟩ := fits poll h
    refine ⟨rfl, start ▸ (State.placed_at h).2, length, ?_⟩
    rw [show (pollEntry s.params poll).id.toNat = poll.1 from State.byteOf_candidate hs (candidate poll h)]
    exact (State.mem_candidates hs).1 (candidate poll h)
  case apart =>
    refine List.pairwise_map.2 ((s.placements_apart es).imp_of_mem fun {a b} ha hb clear => ?_)
    obtain ⟨start, length⟩ := fits a ha
    obtain ⟨start', length'⟩ := fits b hb
    refine (slotsMeet_eq_false_iff ..).1 ?_
    rw [start, length, start', length']
    exact clear
  case clear =>
    intro e he k hk
    obtain ⟨poll, h, rfl⟩ := List.mem_map.1 he
    obtain ⟨start, length⟩ := fits poll h
    refine (slotsMeet_eq_false_iff ..).1 ?_
    rw [start, length]
    exact State.positions_clear (State.placed_at h).1 hk

end Sys2Proof.Machine
end

section
/-! The commands of the fade level and the capacity budget (R109, R111, R113): LOAD_LEVEL_TABLE, STORM and LOAD_BUDGET at their
arrival. -/

namespace Sys2Proof.Machine

open Sys2Proof

/-! ## The checks of the loaded values -/

/-- The checks of R109. A level hold is a byte, so its upper bound always holds. -/
theorem levelTableOk_iff (ths : List Nat) (levelHold : Byte) : levelTableOk ths levelHold.toNat = true ↔
    (∀ th ∈ ths, 1 ≤ th ∧ th ≤ 1001) ∧ 1 ≤ levelHold.toNat ∧ ths.Pairwise (· ≤ ·) := by
  have high : levelHold.toNat ≤ 255 := Nat.le_of_lt_succ levelHold.isLt
  simp only [levelTableOk, Bool.and_eq_true, List.all_eq_true, decide_eq_true_eq, nondecreasing_iff, high, and_true,
    and_assoc]

/-- The check of R113. -/
theorem banksInRange_iff (banks : List Half) :
    banks.all (fun b => b.toNat ≤ 4095) = true ↔ ∀ b ∈ banks, b.toNat ≤ 4095 := by
  simp only [List.all_eq_true, decide_eq_true_eq]

/-- Settles O22: the mode, then the checks of the table (`levelTableOk_iff`). -/
theorem levelTableLoad : Obligations.LevelTableLoad := by
  intro s tag ths levelHold hs hl t ok
  have answers {u : State} {r : Reply} (h : (s.cellRemoved 0).loadLevelTableCommand ths levelHold = (u.cellRemoved 0, r)) :
      exec (.loadLevelTable tag ths levelHold) s = .next (u.answered tag 0x0B r) :=
    exec_answered (c := .loadLevelTable ths levelHold) rfl (beq_iff_eq.2 hl) hs (congrArg atArrival h)
  refine ⟨fun hm => answers (if_pos hm), fun hm => ?_⟩
  have inConfig : ¬ s.si.mode ≠ .config := not_not.2 hm
  refine ⟨fun fails => answers ((if_neg inConfig).trans (if_neg ?_)),
    fun passes => answers ((if_neg inConfig).trans (if_pos ?_))⟩
  · exact mt (levelTableOk_iff t levelHold).1 fails
  · exact (levelTableOk_iff t levelHold).2 passes

/-- Settles O23: a storm that ends, a storm that starts, and the banks by their range (`banksInRange_iff`). -/
theorem stormAndBudgetCommands : Obligations.StormAndBudgetCommands := by
  intro s tag hs
  refine ⟨?_, fun level hlevel => ?_, fun banks hl => ?_⟩
  · exact exec_answered (c := .storm 0) rfl rfl hs (congrArg atArrival (if_pos rfl))
  · exact exec_answered (c := .storm level) rfl rfl hs (congrArg atArrival (if_neg hlevel))
  · have answers {u : State} {r : Reply} (h : (s.cellRemoved 0).loadBudgetCommand banks = (u.cellRemoved 0, r)) :
        exec (.loadBudget tag banks) s = .next (u.answered tag 0x0A r) :=
      exec_answered (c := .loadBudget banks) rfl (beq_iff_eq.2 hl) hs (congrArg atArrival h)
    refine ⟨fun within => answers (if_pos ((banksInRange_iff banks).2 within)), fun ⟨b, hb, high⟩ => ?_⟩
    exact answers (if_neg fun within => Nat.not_le.2 high ((banksInRange_iff banks).1 within b hb))

end Sys2Proof.Machine
end

section
/-! Shedding in victim order (R125 to R127, R133): the shed check and the room made for a head are one operation, which sheds the
terminals that meet a condition until a further cost fits within B_eff; what it reaches, and when it stops. -/

namespace Sys2Proof.Machine

open Sys2Proof

/-! ## Terminals shed one after another -/

/-- Sheds the terminals of a list in its order. -/
def State.shedAll (noted : Bool) (ids : List Nat) (s : State) : State := ids.foldl (fun v id => v.shedTerminal noted id) s

theorem State.shedAll_cons (noted : Bool) (id : Nat) (ids : List Nat) (s : State) :
    State.shedAll noted (id :: ids) s = State.shedAll noted ids (s.shedTerminal noted id) := rfl

theorem State.shedTerminal_vacant {s : State} {id : Nat} (h : s.record? id = none) (noted : Bool) :
    s.shedTerminal noted id = s := State.withRecord_vacant h _

theorem MarkerClosed.shedAll {R : State → State → Prop} (h : MarkerClosed R) (noted : Bool) (ids : List Nat) (s : State) :
    R s (State.shedAll noted ids s) := h.foldl (fun v id => h.shedTerminal v noted id) ids s

theorem State.shedAll_figures (noted : Bool) (ids : List Nat) (s : State) :
    (State.shedAll noted ids s).ac.figures = s.ac.figures := engineClosed_figures.marker.shedAll noted ids s

theorem State.shedAll_bEff (noted : Bool) (ids : List Nat) (s : State) : (State.shedAll noted ids s).ac.bEff = s.ac.bEff := by
  exact (congrArg Ac.bEff (State.shedAll_figures noted ids s) :)

theorem State.shedTerminal_bEff (s : State) (noted : Bool) (id : Nat) : (s.shedTerminal noted id).ac.bEff = s.ac.bEff :=
  State.shedAll_bEff noted [id] s

section
variable {s : State} (hs : s.recordsSound)
include hs

/-- The shed of a VACANT ID changes nothing, so the record is given for every ID. -/
theorem State.record?_shedTerminal_eq (noted : Bool) (id k : Nat) : (s.shedTerminal noted id).record? k =
    if k = id then (s.record? k).map (shedRecord s.si.markerCount) else s.record? k := by
  rcases hr : s.record? id with _ | r
  · rw [State.shedTerminal_vacant hr]
    split
    · next hk => rw [hk, hr]; rfl
    · rfl
  · split
    · next hk => rw [hk, State.record?_shedTerminal hs hr, hr]; rfl
    · next hk => exact State.record?_shedTerminal_of_ne hs hr hk noted

theorem State.shedAll_ot (noted : Bool) (ids : List Nat) : (State.shedAll noted ids s).ot = s.ot := by
  have one (v : State) (id : Nat) (hv : v.recordsSound ∧ v.ot = s.ot) :
      (v.shedTerminal noted id).recordsSound ∧ (v.shedTerminal noted id).ot = s.ot := by
    refine ⟨(v.engineOnly_shedTerminal noted id).recordsSound hv.1, Eq.trans ?_ hv.2⟩
    rcases hr : v.record? id with _ | r
    · rw [State.shedTerminal_vacant hr]
    · exact State.shedTerminal_ot hv.1 hr noted
  exact (foldl_kept (P := fun v : State => v.recordsSound ∧ v.ot = s.ot) one ids ⟨hs, rfl⟩).2

/-- The records after several sheds: those of the list are shed, all others stand. -/
theorem State.record?_shedAll (noted : Bool) {ids : List Nat} (hn : ids.Nodup) (k : Nat) :
    (State.shedAll noted ids s).record? k =
      if k ∈ ids then (s.record? k).map (shedRecord s.si.markerCount) else s.record? k := by
  induction ids generalizing s with
  | nil => rfl
  | cons id ids ih =>
    obtain ⟨new, hn⟩ := List.nodup_cons.1 hn
    have only := s.engineOnly_shedTerminal noted id
    have later := ih (only.recordsSound hs) hn
    rw [only.markerCount, State.record?_shedTerminal_eq hs] at later
    by_cases hk : k = id
    · subst hk
      rw [if_neg new, if_pos rfl] at later
      rw [if_pos List.mem_cons_self]
      exact later
    · rw [if_neg hk] at later
      simp only [List.mem_cons, hk, false_or]
      exact later

/-- A shed terminal stands on the wait list, and a terminal that stood on it stays. -/
theorem State.mem_waitList_shedAll (noted : Bool) {ids : List Nat} {k : Nat}
    (h : k ∈ s.ac.waitList ∨ k ∈ ids ∧ ∃ r, s.record? k = some r) : k ∈ (State.shedAll noted ids s).ac.waitList := by
  induction ids generalizing s with
  | nil => exact h.resolve_right fun hk => List.not_mem_nil hk.1
  | cons id ids ih =>
    rw [State.shedAll_cons]
    refine ih ((s.engineOnly_shedTerminal noted id).recordsSound hs) ?_
    rcases hr : s.record? id with _ | r
    · rw [State.shedTerminal_vacant hr]
      refine h.imp_right fun ⟨hk, q, hq⟩ => ⟨(List.mem_cons.1 hk).resolve_left ?_, q, hq⟩
      rintro rfl
      rw [hr] at hq
      cases hq
    · rw [State.shedTerminal_waitList hs hr, mem_insertBy, State.record?_shedTerminal_eq hs]
      rcases h with h | ⟨hk, q, hq⟩
      · exact .inl (.inr h)
      · rcases List.mem_cons.1 hk with rfl | hk
        · exact .inl (.inl rfl)
        · refine .inr ⟨hk, ?_⟩
          split
          · exact ⟨_, congrArg (Option.map _) hq⟩
          · exact ⟨q, hq⟩

end

/-! ## Sheds until a cost fits -/

/-- What the terminals that meet a condition would free. -/
def costAmong (among : Record → Bool) (r : Record) : Nat := if among r then r.cost else 0

theorem recordSum_costAmong (among : Record → Bool) (records : List (Nat × Record)) :
    recordSum (costAmong among) records = ((records.filter fun e => among e.2).map (·.2.cost)).sum := by
  induction records with
  | nil => rfl
  | cons e records ih =>
    have head : recordSum (costAmong among) (e :: records) = costAmong among e.2 + recordSum (costAmong among) records := rfl
    rw [head, ih, costAmong, List.filter_cons]
    split
    · rfl
    · exact Nat.zero_add _

theorem costAmong_sheddable (r : Record) : costAmong sheddable r = committedCost r := by
  simp only [costAmong, committedCost, sheddable, Bool.and_eq_true, decide_eq_true_eq]
  by_cases hc : r.state.committed = true
  · rw [if_pos hc]
    by_cases hp : 0 < r.cost
    · rw [if_pos ⟨hc, hp⟩]
    · rw [if_neg fun h => hp h.2, Nat.eq_zero_of_not_pos hp]
  · rw [if_neg hc, if_neg fun h => hc h.1]

/-- Sheds terminals that meet a condition, in victim order, until a further cost fits within B_eff, at most so many. -/
def State.shedUntil (noted : Bool) (among : Record → Bool) (extra : Nat) : Nat → State → State
  | 0, s => s
  | n + 1, s =>
    if s.ac.committedSum + extra ≤ s.ac.bEff then s
    else
      match s.victim? among with
      | none => s
      | some id => State.shedUntil noted among extra n (s.shedTerminal noted id)

/-- The shed check frees no further cost, and takes every terminal that can be a victim (R126). -/
theorem State.shedWhileOver_eq (noted : Bool) (n : Nat) (s : State) :
    State.shedWhileOver noted n s = State.shedUntil noted sheddable 0 n s := by
  induction n generalizing s with
  | zero => rfl
  | succ n ih =>
    rw [State.shedUntil, ← funext ih]
    rfl

/-- Room for a head is made among the terminals it may preempt (R133). -/
theorem State.makeRoom_eq (headClass cost n : Nat) (s : State) :
    State.makeRoom headClass cost n s = State.shedUntil true (preemptible headClass) cost n s := by
  induction n generalizing s with
  | zero => rfl
  | succ n ih =>
    rw [State.shedUntil, ← funext ih]
    rfl

/-- The first of the terminals that meet a condition, in victim order, is the victim. -/
theorem State.victim?_of_first {s : State} (hs : s.recordsSound) {among : Record → Bool} {id : Nat} {ids : List Nat}
    (ordered : (id :: ids).Pairwise fun a b => s.outranks b a = true)
    (members : ∀ k, k ∈ id :: ids ↔ ∃ r, s.record? k = some r ∧ among r = true) : s.victim? among = some id := by
  obtain ⟨r, hr, meets⟩ := (members id).1 List.mem_cons_self
  rcases hv : s.victim? among with _ | v
  · have none := (State.victim?_eq_none hs).1 hv id r hr
    rw [meets] at none
    cases none
  · obtain ⟨isMember, last⟩ := State.victim?_spec hs hv
    rcases List.mem_cons.1 ((members v).2 isMember) with rfl | later
    · rfl
    · have before := (List.pairwise_cons.1 ordered).1 v later
      have ne : id ≠ v := fun h => by
        rw [h, State.outranks_irrefl] at before
        cases before
      have after := last id r hr meets ne
      rw [State.outranks_asymm s before] at after
      cases after

/-- Sheds until a cost fits, among the terminals of a list in victim order: the first `k` of them have been shed, before each of
them the cost did not fit, and now it does. -/
structure State.ShedsUntil (s t : State) (noted : Bool) (extra : Nat) (victims : List Nat) (k : Nat) : Prop where
  count : k ≤ victims.length
  reached : t = State.shedAll noted (victims.take k) s
  needed : ∀ j, j < k → s.ac.bEff < (State.shedAll noted (victims.take j) s).ac.committedSum + extra
  room : t.ac.committedSum + extra ≤ t.ac.bEff

theorem State.shedsUntil_none {s : State} {noted : Bool} {extra : Nat} (victims : List Nat)
    (room : s.ac.committedSum + extra ≤ s.ac.bEff) : s.ShedsUntil s noted extra victims 0 :=
  ⟨Nat.zero_le _, rfl, fun _ hj => absurd hj (Nat.not_lt_zero _), room⟩

/-- A shed exchanges the sum of a figure over the records for the shed record's. -/
theorem State.recordSum_shedTerminal {s : State} (hs : s.recordsSound) {id : Nat} {r : Record} (hr : s.record? id = some r)
    (noted : Bool) (w : Record → Nat) : recordSum w (s.shedTerminal noted id).tt.records + w r =
      recordSum w s.tt.records + w (shedRecord s.si.markerCount r) := by
  have records : (s.shedTerminal noted id).tt.records = assocUpdate s.tt.records id fun _ => shedRecord s.si.markerCount r := by
    rw [State.shedTerminal_of_record hs hr]
    exact congrArg Tt.records (State.notify_tt _ _ _ _)
  rw [records]
  exact recordSum_put w hs.1 (State.record?_mem hr) _

theorem State.shedTerminal_sum {s : State} (hs : s.recordsSound) {id : Nat} {r : Record} (hr : s.record? id = some r)
    (noted : Bool) : (s.shedTerminal noted id).ac.committedSum = s.ac.committedSum - r.cost := by
  rw [State.shedTerminal_of_record hs hr]
  exact congrArg Ac.committedSum (State.notify_ac _ _ _ _)

theorem costAmong_le_recordSum (among : Record → Bool) {records : List (Nat × Record)} {e : Nat × Record} (he : e ∈ records) :
    costAmong among e.2 ≤ recordSum (costAmong among) records :=
  List.single_le_sum (fun _ _ => Nat.zero_le _) _ (List.mem_map_of_mem (f := fun e => costAmong among e.2) he)

/-- Sheds stop as soon as the cost fits, and it fits in the end: the terminals that meet the condition free enough, and what
they free is part of the committed sum. -/
theorem State.shedUntil_sheds {s : State} (hs : s.recordsSound) {among : Record → Bool}
    (committed : ∀ r, among r = true → r.state.committed = true) {noted : Bool} {extra n : Nat} {victims : List Nat}
    (ordered : victims.Pairwise fun a b => s.outranks b a = true)
    (members : ∀ k, k ∈ victims ↔ ∃ r, s.record? k = some r ∧ among r = true) (fuel : victims.length ≤ n)
    (counted : recordSum (costAmong among) s.tt.records ≤ s.ac.committedSum)
    (enough : s.ac.committedSum + extra ≤ s.ac.bEff + recordSum (costAmong among) s.tt.records) :
    ∃ k, s.ShedsUntil (State.shedUntil noted among extra n s) noted extra victims k := by
  induction victims generalizing s n with
  | nil =>
    have noVictim : ∀ id r, s.record? id = some r → among r = false := fun id r hr =>
      Bool.eq_false_iff.2 fun meets => List.not_mem_nil ((members id).2 ⟨r, hr, meets⟩)
    have free : recordSum (costAmong among) s.tt.records = 0 := by
      rw [recordSum_costAmong, List.filter_eq_nil_iff.2]
      · rfl
      · exact fun e he => by simp [noVictim e.1 e.2 (State.mem_record? hs he)]
    have room : s.ac.committedSum + extra ≤ s.ac.bEff := by omega
    refine ⟨0, ?_⟩
    cases n with
    | zero => exact State.shedsUntil_none [] room
    | succ n =>
      rw [State.shedUntil, if_pos room]
      exact State.shedsUntil_none [] room
  | cons v vs ih =>
    obtain ⟨n, rfl⟩ : ∃ m, n = m + 1 := ⟨n - 1, by simp only [List.length_cons] at fuel; omega⟩
    rw [State.shedUntil]
    split
    · next room => exact ⟨0, State.shedsUntil_none _ room⟩
    · next tooMuch =>
      rw [State.victim?_of_first hs ordered members]
      dsimp only
      obtain ⟨r, hr, meets⟩ := (members v).1 List.mem_cons_self
      have only := s.engineOnly_shedTerminal noted v
      have order := State.outranks_of_identity (markerClosed_identity.shedTerminal s noted v)
      have cost : costAmong among r = r.cost := if_pos meets
      have shed : among (shedRecord s.si.markerCount r) = false :=
        Bool.eq_false_iff.2 fun h => by cases committed _ h
      have freed : costAmong among (shedRecord s.si.markerCount r) = 0 := if_neg (Bool.eq_false_iff.1 shed)
      have exchanged := State.recordSum_shedTerminal hs hr noted (costAmong among)
      have part := costAmong_le_recordSum among (State.record?_mem hr)
      have sum := State.shedTerminal_sum hs hr noted
      have bEff := s.shedTerminal_bEff noted v
      dsimp only at part
      obtain ⟨first, ordered⟩ := List.pairwise_cons.1 ordered
      have new : v ∉ vs := fun hv => by
        have := first v hv
        rw [State.outranks_irrefl] at this
        cases this
      have left (k : Nat) : k ∈ vs ↔ ∃ q, (s.shedTerminal noted v).record? k = some q ∧ among q = true := by
        rw [State.record?_shedTerminal_eq hs]
        by_cases hk : k = v
        · subst hk
          rw [if_pos rfl, hr]
          refine ⟨fun h => absurd h new, fun ⟨q, hq, hm⟩ => ?_⟩
          cases hq
          rw [shed] at hm
          cases hm
        · rw [if_neg hk, ← members k, List.mem_cons, or_iff_right hk]
      obtain ⟨k, count, reached, needed, room⟩ := ih (s := s.shedTerminal noted v) (n := n) (only.recordsSound hs)
        (by rwa [order]) left (Nat.le_of_succ_le_succ fuel) (by omega) (by omega)
      refine ⟨k + 1, Nat.succ_le_succ count, reached, fun j hj => ?_, room⟩
      cases j with
      | zero => exact Nat.not_le.1 tooMuch
      | succ j =>
        rw [← bEff]
        exact needed j (Nat.lt_of_succ_lt_succ hj)

/-- The terminals that meet a condition, in victim order (R125). -/
def State.victimOrder (s : State) (among : Record → Bool) : List Nat := (s.inPriority among).reverse

section
variable {s : State} (hs : s.recordsSound) (among : Record → Bool)
include hs

theorem State.victimOrder_ordered : (s.victimOrder among).Pairwise fun a b => s.outranks b a = true :=
  List.pairwise_reverse.2 (State.inPriority_ordered hs among)

theorem State.mem_victimOrder (id : Nat) : id ∈ s.victimOrder among ↔ ∃ r, s.record? id = some r ∧ among r = true := by
  rw [State.victimOrder, List.mem_reverse, State.mem_inPriority hs]

omit hs in
theorem State.victimOrder_length_le : (s.victimOrder among).length ≤ s.tt.records.length := by
  rw [State.victimOrder, List.length_reverse, State.inPriority, (sortBy_perm _ _).length_eq, List.length_map]
  exact List.length_filter_le _ _

theorem State.victimOrder_nodup : (s.victimOrder among).Nodup :=
  (State.victimOrder_ordered hs among).imp fun h => by
    rintro rfl
    rw [State.outranks_irrefl] at h
    cases h

/-- The shed check, where the committed sum is that of the committed records: it ends within B_eff (R126). -/
theorem State.shedCheck_sheds (accounts : s.accountsSound) (noted : Bool) :
    ∃ k, s.ShedsUntil (s.shedCheck noted) noted 0 (s.victimOrder sheddable) k := by
  have all : recordSum (costAmong sheddable) s.tt.records = s.ac.committedSum := by
    rw [accounts.1, committedTotal_eq, recordSum, recordSum]
    exact congrArg List.sum (List.map_congr_left fun e _ => costAmong_sheddable e.2)
  rw [State.shedCheck, State.shedWhileOver_eq]
  exact State.shedUntil_sheds hs (fun _ h => State.Shows.committed_of_sheddable h) (State.victimOrder_ordered hs _)
    (State.mem_victimOrder hs _) (State.victimOrder_length_le _) (Nat.le_of_eq all) (by omega)

/-- Room made for a head, where the preemptible terminals free what it lacks (R133). -/
theorem State.makeRoom_sheds {headClass cost : Nat} (counted : s.preemptibleCost headClass ≤ s.ac.committedSum)
    (enough : s.ac.committedSum + cost ≤ s.ac.bEff + s.preemptibleCost headClass) :
    ∃ k, s.ShedsUntil (State.makeRoom headClass cost s.tt.records.length s) true cost
      (s.victimOrder (preemptible headClass)) k := by
  rw [State.preemptibleCost, ← recordSum_costAmong] at counted enough
  rw [State.makeRoom_eq]
  exact State.shedUntil_sheds hs
    (fun _ h => State.Shows.committed_of_sheddable (by simp only [preemptible, Bool.and_eq_true] at h; exact h.1))
    (State.victimOrder_ordered hs _) (State.mem_victimOrder hs _) (State.victimOrder_length_le _) counted enough

end

end Sys2Proof.Machine
end

section
/-! The account of the part (R121, R122, R124): the committed sum, the wait list, the costs and the budget under a change of one
record, and under a change of all of them. -/

namespace Sys2Proof.Machine

open Sys2Proof

/-! ## What the account reads of a record -/

/-- Two values of one record that the account does not tell apart: the class, whether it waits or is committed, the cost; and, where
costs are to be current, what a committed record's cost rests on. -/
structure Record.SameAccount (current : Prop) (r q : Record) : Prop where
  cls : q.cls = r.cls
  waiting : q.state.waiting = r.state.waiting
  committed : q.state.committed = r.state.committed
  cost : q.cost = r.cost
  tariff : current → r.state.committed = true → q.load = r.load ∧ q.profile = r.profile

theorem Record.SameAccount.refl (current : Prop) (r : Record) : r.SameAccount current r := ⟨rfl, rfl, rfl, rfl, fun _ _ => ⟨rfl, rfl⟩⟩

theorem Record.SameAccount.committedCost {current : Prop} {r q : Record} (h : r.SameAccount current q) :
    committedCost q = committedCost r := by
  simp only [Machine.committedCost, h.committed, h.cost]

/-- The records in the place of records that the account does not tell apart: no cost and no place on the wait list changes. -/
theorem committedTotal_map {current : Prop} {records : List (Nat × Record)} {f : Nat → Record → Record}
    (same : ∀ e ∈ records, e.2.SameAccount current (f e.1 e.2)) :
    committedTotal (records.map fun e => (e.1, f e.1 e.2)) = committedTotal records := by
  rw [committedTotal_eq, committedTotal_eq, recordSum, recordSum, List.map_map]
  exact congrArg List.sum (List.map_congr_left fun e he => (same e he).committedCost)

/-! ## The wait list by its members -/

/-- A wait list in the order of a state that holds exactly its waiting terminals. -/
theorem State.waitListSound_iff {s : State} (hs : s.recordsSound) : s.waitListSound ↔
    (s.ac.waitList.Pairwise fun a b => s.outranks a b = true) ∧
      ∀ id, id ∈ s.ac.waitList ↔ ∃ r, s.record? id = some r ∧ r.state.waiting = true := by
  have waits (id : Nat) : (s.stateOf id).map TState.waiting = some true ↔
      ∃ r, s.record? id = some r ∧ r.state.waiting = true := by
    rw [State.stateOf, Option.map_map, Option.map_eq_some_iff]
    rfl
  refine and_congr_right fun _ => ⟨fun ⟨sound, complete⟩ id => ⟨fun h => (waits id).1 (sound id h), ?_⟩, fun h =>
    ⟨fun id hid => (waits id).2 ((h id).1 hid), fun e he hw => (h e.1).2 ⟨e.2, State.mem_record? hs he, hw⟩⟩⟩
  rintro ⟨r, hr, hw⟩
  exact complete _ (State.record?_mem hr) hw

theorem filter_ne_of_not_mem {l : List Nat} {id : Nat} (h : id ∉ l) : l.filter (· ≠ id) = l :=
  List.filter_eq_self.2 fun _ hk => decide_eq_true fun hc => h (hc ▸ hk)

/-- The wait list once the record of an ID is another. -/
def State.listWith (s : State) (id : Nat) (q : Record) : List Nat :=
  if q.state.waiting then if id ∈ s.ac.waitList then s.ac.waitList else insertBy s.outranks id s.ac.waitList
  else s.ac.waitList.filter (· ≠ id)

theorem State.mem_listWith (s : State) (id : Nat) (q : Record) (k : Nat) :
    k ∈ s.listWith id q ↔ if k = id then q.state.waiting = true else k ∈ s.ac.waitList := by
  simp only [State.listWith]
  split_ifs with hw hm hk hk hk
  · simp only [hk, hm, true_iff]
    exact hw
  · rfl
  · simp only [mem_insertBy, hk, true_or, true_iff]
    exact hw
  · simp only [mem_insertBy, hk, false_or]
  · simp [hk, hw]
  · simp [hk]

theorem State.listWith_of_not_listed {s : State} {id : Nat} (h : id ∉ s.ac.waitList) {q : Record}
    (hw : q.state.waiting = false) : s.listWith id q = s.ac.waitList := by
  rw [State.listWith, hw, if_neg Bool.false_ne_true]
  exact filter_ne_of_not_mem h

theorem State.listWith_of_listed {s : State} {id : Nat} (h : id ∈ s.ac.waitList) {q : Record}
    (hw : q.state.waiting = true) : s.listWith id q = s.ac.waitList := by
  rw [State.listWith, if_pos hw, if_pos h]

/-! ## One record replaced -/

section
variable {s t : State} {id : Nat} {r q : Record} (hs : s.recordsSound) (hr : s.record? id = some r)
  (records : t.tt.records = (s.put id q).tt.records)
include hs hr records

/-- The total exchanges the record's cost for the new one's (R122). -/
theorem State.accountsSound_put (h : s.accountsSound) (free : q.state.committed = false → q.cost = 0)
    (sum : t.ac.committedSum = s.ac.committedSum + committedCost q - committedCost r) : t.accountsSound := by
  have exchanged := recordSum_put committedCost hs.1 (State.record?_mem hr) q
  refine ⟨?_, fun e he => ?_⟩
  · rw [sum, h.1, records, committedTotal_eq, committedTotal_eq]
    change _ = recordSum committedCost (assocUpdate s.tt.records id fun _ => q)
    omega
  · rw [records] at he
    obtain ⟨e', he', rfl⟩ := List.mem_map.1 he
    split
    · exact free
    · exact h.2 e' he'

/-- The terminal takes its place, keeps it or leaves it as its new record waits or not; its class is not changed (R124). -/
theorem State.waitListSound_put (h : s.waitListSound) (cls : q.cls = r.cls) (list : t.ac.waitList = s.listWith id q) :
    t.waitListSound := by
  obtain ⟨ordered, members⟩ := (State.waitListSound_iff hs).1 h
  have same := State.record?_congr (s := s.put id q) (t := t) records
  have order : t.outranks = s.outranks := State.outranks_congr fun k => by
    rw [same]
    by_cases hk : k = id
    · rw [hk, State.record?_put_self hr, hr, Option.map_some, Option.map_some, cls]
    · rw [State.record?_put_of_ne hk]
  have sound : t.recordsSound :=
    (State.recordsSound_congr (by simp only [State.ids, records])).2 (s.recordsSound_put hs id q)
  refine (State.waitListSound_iff sound).2 ⟨?_, fun k => ?_⟩
  · rw [list, order, State.listWith]
    split_ifs with hw hm
    · exact ordered
    · exact s.insertBy_ordered hm ordered
    · exact ordered.sublist List.filter_sublist
  · rw [list, State.mem_listWith, same]
    by_cases hk : k = id
    · rw [if_pos hk, hk, State.record?_put_self hr]
      exact ⟨fun hw => ⟨q, rfl, hw⟩, fun ⟨_, hq, hw⟩ => by cases hq; exact hw⟩
    · rw [if_neg hk, State.record?_put_of_ne hk]
      exact members k

end

/-- A change of every record that keeps its class and whether it waits (R124). -/
theorem State.waitListSound_updateAll {s : State} (hs : s.recordsSound) (h : s.waitListSound) {f : Nat → Record → Record}
    (cls : ∀ id r, s.record? id = some r → (f id r).cls = r.cls)
    (waiting : ∀ id r, s.record? id = some r → (f id r).state.waiting = r.state.waiting) : (s.updateAll f).waitListSound := by
  have sound : (s.updateAll f).recordsSound := (State.recordsSound_congr (s.ids_updateAll f)).2 hs
  have order : (s.updateAll f).outranks = s.outranks := State.outranks_congr fun k => by
    rw [State.record?_updateAll, Option.map_map]
    rcases hk : s.record? k with _ | q
    · rfl
    · exact congrArg some (cls k q hk)
  obtain ⟨ordered, members⟩ := (State.waitListSound_iff hs).1 h
  refine (State.waitListSound_iff sound).2 ⟨by rwa [order], fun k => (members k).trans ?_⟩
  rw [State.record?_updateAll]
  rcases hk : s.record? k with _ | q
  · exact ⟨fun ⟨_, hq, _⟩ => (nomatch hq), fun ⟨_, hq, _⟩ => (nomatch hq)⟩
  · refine ⟨fun ⟨_, hq, hw⟩ => ⟨f k q, rfl, ?_⟩, fun ⟨_, hq, hw⟩ => ⟨q, rfl, ?_⟩⟩
    · cases hq
      exact (waiting k q hk).trans hw
    · cases hq
      exact (waiting k q hk).symm.trans hw

/-- The law of the account (R121, R122, R124, R126): records, sum and wait list, with costs that are current and a sum within B_eff
where they have to be. -/
structure State.Account (current within : Prop) (s : State) : Prop where
  records : s.recordsSound
  sums : s.accountsSound
  waits : s.waitListSound
  costs : current → s.costsCurrent
  budget : within → s.ac.committedSum ≤ s.ac.bEff

namespace State.Account

variable {current within : Prop} {s t : State} {id : Nat} {r : Record}

theorem weaken (h : s.Account current within) {current' within' : Prop} (hc : current' → current) (hw : within' → within) :
    s.Account current' within' :=
  { h with costs := fun c => h.costs (hc c), budget := fun w => h.budget (hw w) }

/-- Another demand on the budget, where the sum meets it. -/
theorem rebudget (h : s.Account current within) {within' : Prop} (hw : within' → within) : s.Account current within' :=
  h.weaken (fun c => c) hw

/-- A sum within B_eff meets every demand. -/
theorem ofWithin (h : s.Account current True) : s.Account current within := h.rebudget fun _ => trivial

theorem waitSound (h : s.Account current within) : s.WaitSound := State.waitSound_of_sound h.records h.waits

/-- What the account reads of a state. -/
theorem congr (h : s.Account current within) (records : t.tt.records = s.tt.records)
    (sum : t.ac.committedSum = s.ac.committedSum) (list : t.ac.waitList = s.ac.waitList) (lm : t.lm = s.lm)
    (bEff : t.ac.bEff = s.ac.bEff) : t.Account current within := by
  have same := State.record?_congr (s := s) (t := t) records
  have sound : t.recordsSound := (State.recordsSound_congr (by simp only [State.ids, records])).2 h.records
  refine ⟨sound, ?_, ?_, fun c => ?_, fun w => ?_⟩
  · simpa only [State.accountsSound, sum, records] using h.sums
  · have order : t.outranks = s.outranks := State.outranks_congr fun k => by rw [same]
    rw [State.waitListSound_iff sound, list, order]
    simpa only [same] using (State.waitListSound_iff h.records).1 h.waits
  · simpa only [State.costsCurrent, records, lm] using h.costs c
  · rw [sum, bEff]
    exact h.budget w

theorem notify (h : s.Account current within) (kind : NoticeKind) (of : Option Nat) (values : List Int) :
    (s.notify kind of values).Account current within :=
  h.congr (by rw [State.notify_tt]) (by rw [State.notify_ac]) (by rw [State.notify_ac]) (State.notify_lm ..)
    (by rw [State.notify_ac])

theorem mem_waitList (h : s.Account current within) (hr : s.record? id = some r) :
    id ∈ s.ac.waitList ↔ r.state.waiting = true := by
  rw [((State.waitListSound_iff h.records).1 h.waits).2 id, hr]
  exact ⟨fun ⟨_, hq, hw⟩ => by cases hq; exact hw, fun hw => ⟨r, rfl, hw⟩⟩

/-- A terminal that does not wait is not listed. -/
theorem not_listed (h : s.Account current within) (hr : s.record? id = some r) (hw : r.state.waiting = false) :
    id ∉ s.ac.waitList := by
  rw [h.mem_waitList hr, hw]
  exact Bool.false_ne_true

/-- One record replaced by one of its class, with the sum and the wait list brought in step. -/
theorem replace (h : s.Account current within) (hr : s.record? id = some r) {q : Record} (cls : q.cls = r.cls)
    (free : q.state.committed = false → q.cost = 0)
    (cost : current → q.state.committed = true → q.cost = airtimeCost s.lm.profiles q.load q.profile)
    (fits : within → s.ac.committedSum + committedCost q - committedCost r ≤ s.ac.bEff)
    (records : t.tt.records = (s.put id q).tt.records)
    (sum : t.ac.committedSum = s.ac.committedSum + committedCost q - committedCost r)
    (list : t.ac.waitList = s.listWith id q) (lm : t.lm = s.lm) (bEff : t.ac.bEff = s.ac.bEff) :
    t.Account current within where
  records := (State.recordsSound_congr (by simp only [State.ids, records])).2 (s.recordsSound_put h.records id q)
  sums := State.accountsSound_put h.records hr records h.sums free sum
  waits := State.waitListSound_put h.records hr records h.waits cls list
  costs c e he hc := by
    rw [records] at he
    rw [lm]
    obtain ⟨e', he', rfl⟩ := List.mem_map.1 he
    split at hc
    · next hid =>
      rw [if_pos hid]
      exact cost c hc
    · next hid =>
      rw [if_neg hid]
      exact h.costs c e' he' hc
  budget w := by
    rw [sum, bEff]
    exact fits w

/-- A change of every record that the account does not notice. -/
theorem updateAll (h : s.Account current within) {f : Nat → Record → Record}
    (same : ∀ id r, s.record? id = some r → r.SameAccount current (f id r)) : (s.updateAll f).Account current within := by
  have each (e : Nat × Record) (he : e ∈ s.tt.records) := same e.1 e.2 (State.mem_record? h.records he)
  have sound : (s.updateAll f).recordsSound := (State.recordsSound_congr (s.ids_updateAll f)).2 h.records
  refine ⟨sound, ⟨h.sums.1.trans (committedTotal_map each).symm, fun e he hc => ?_⟩,
    State.waitListSound_updateAll h.records h.waits (fun id r hr => (same id r hr).cls) fun id r hr => (same id r hr).waiting,
    fun c e he hc => ?_, h.budget⟩
  · obtain ⟨e', he', rfl⟩ := List.mem_map.1 he
    exact (each e' he').cost.trans (h.sums.2 e' he' ((each e' he').committed.symm.trans hc))
  · obtain ⟨e', he', rfl⟩ := List.mem_map.1 he
    have was : e'.2.state.committed = true := (each e' he').committed.symm.trans hc
    obtain ⟨load, profile⟩ := (each e' he').tariff c was
    dsimp only
    rw [(each e' he').cost, load, profile]
    exact h.costs c e' he' was

/-- A change of one record that the account does not notice. -/
theorem update (h : s.Account current within) {f : Record → Record}
    (same : s.recordIs id fun r => r.SameAccount current (f r)) : (s.update id f).Account current within := by
  have one : s.update id f = s.updateAll fun k r => if k = id then f r else r := by
    refine congrArg s.setRecords (List.map_congr_left fun e _ => ?_)
    by_cases he : e.1 = id <;> simp only [he, if_true, if_false]
  rw [one]
  refine h.updateAll fun k r hk => ?_
  split
  · next hid => exact same r (hid ▸ hk)
  · exact .refl _ _

theorem put (h : s.Account current within) (hr : s.record? id = some r) {q : Record} (same : r.SameAccount current q) :
    (s.put id q).Account current within := by
  rw [← State.update_eq_put (f := fun _ => q) h.records hr]
  exact h.update (State.recordIs_of_record? hr same)

/-- A terminal gives up its cost and its place on the wait list. -/
theorem leave (h : s.Account current within) (hr : s.record? id = some r) {q : Record} (cls : q.cls = r.cls)
    (notWaiting : q.state.waiting = false) (notCommitted : q.state.committed = false) (cost : q.cost = 0) :
    ((s.accountsLeft id r).put id q).Account current within := by
  have none : committedCost q = 0 := if_neg (Bool.eq_false_iff.1 notCommitted)
  have sum : (s.accountsLeft id r).ac.committedSum = s.ac.committedSum + committedCost q - committedCost r := by
    rw [none, State.accountsLeft, committedCost]
    dsimp only
    split <;> rfl
  refine h.replace hr (q := q) cls (fun _ => cost) (fun _ hc => ?_) (fun w => ?_) rfl sum ?_ rfl rfl
  · rw [notCommitted] at hc
    cases hc
  · have := h.budget w
    omega
  · change (if r.state.waiting then s.ac.waitList.filter (· ≠ id) else s.ac.waitList) = s.listWith id q
    split
    · rw [State.listWith, notWaiting, if_neg Bool.false_ne_true]
    · next hw => exact (State.listWith_of_not_listed (h.not_listed hr (Bool.eq_false_iff.2 hw)) notWaiting).symm

/-- An operation that begins with the record of an ID. -/
theorem withRecord (h : s.Account current within) {f : Record → State}
    (hf : ∀ r, s.record? id = some r → (f r).Account current within) : (s.withRecord id f).Account current within := by
  rcases hr : s.record? id with _ | r
  · rwa [State.withRecord_vacant hr]
  · rw [State.withRecord_of_record? hr]
    exact hf r hr

end State.Account

theorem TState.waiting_of_committed {st : TState} (h : st.committed = true) : st.waiting = false := by
  cases st <;> simp_all [TState.committed, TState.waiting]

/-- The sum and the records alone, where one terminal is shed. -/
theorem State.accountsSound_shedTerminal {s : State} (hs : s.recordsSound) (h : s.accountsSound) (noted : Bool) {id : Nat}
    {r : Record} (hr : s.record? id = some r) (hc : r.state.committed = true) : (s.shedTerminal noted id).accountsSound := by
  have shed : (s.shedTerminal noted id).tt.records = (s.put id (shedRecord s.si.markerCount r)).tt.records := by
    rw [State.shedTerminal_of_record hs hr]
    exact congrArg Tt.records (State.notify_tt _ _ _ _)
  refine State.accountsSound_put hs hr shed h (fun _ => rfl) ?_
  rw [State.shedTerminal_sum hs hr, committedCost, committedCost, if_pos hc]
  rfl

end Sys2Proof.Machine
end

section
/-! The shed check and the admission pass (R125 to R127, R132 to R135): what a shed comes to, what the check makes of each record,
and the head of the wait list that is admitted, admitted at others' cost, or left. -/

namespace Sys2Proof.Machine

open Sys2Proof

/-! ## One shed (R127) -/

/-- The shed of a terminal, with its place by the order of the state before. -/
theorem State.shedTerminal_eq {s : State} (hs : s.recordsSound) (noted : Bool) {id : Nat} {r : Record}
    (hr : s.record? id = some r) : s.shedTerminal noted id =
      (let told := State.notify (State.put { s with ac := { s.ac with committedSum := s.ac.committedSum - r.cost } } id
          (shedRecord s.si.markerCount r)) .terminalShed (some id) [r.cost]
       { told with ac := { told.ac with
          waitList := insertBy s.outranks id s.ac.waitList
          shedNote := if noted then s.ac.shedNote ++ [id] else s.ac.shedNote } }) := by
  have list := State.shedTerminal_waitList hs hr noted
  rw [State.shedTerminal_of_record hs hr] at list ⊢
  dsimp only at list ⊢
  rw [list]
  simp only [State.notify_ac, State.put_ac]

/-! ## The shed check (R126) -/

section
variable {s t : State} {noted : Bool} {extra k : Nat} {victims : List Nat} (hs : s.recordsSound)
  (h : s.ShedsUntil t noted extra victims k) (nodup : victims.Nodup)
include hs h nodup

/-- The records after sheds until a cost fits. -/
theorem State.ShedsUntil.record? (id : Nat) : t.record? id =
    if id ∈ victims.take k then (s.record? id).map (shedRecord s.si.markerCount) else s.record? id := by
  rw [h.reached]
  exact State.record?_shedAll hs noted (nodup.sublist (List.take_sublist k victims)) id

/-- A record reads as shed where its terminal is one of those shed: the count of sheds tells it from every other (R127). -/
theorem State.ShedsUntil.mem_of_shed {id : Nat} {r : Record} (hr : s.record? id = some r)
    (shed : t.record? id = some (shedRecord s.si.markerCount r)) : id ∈ victims.take k := by
  by_contra hn
  rw [h.record? hs nodup, if_neg hn, hr] at shed
  have counted : r.sheds = r.sheds + 1 := congrArg Record.sheds (Option.some.inj shed)
  bv_omega

end

/-- Where the first victims of an order are shed, those left of it outrank each of them. -/
theorem State.outranks_of_left {s : State} {victims : List Nat} {k a b : Nat}
    (ordered : victims.Pairwise fun a b => s.outranks b a = true) (ha : a ∈ victims.take k) (hb : b ∈ victims)
    (left : b ∉ victims.take k) : s.outranks b a = true := by
  rw [← List.take_append_drop k victims, List.pairwise_append] at ordered
  rw [← List.take_append_drop k victims, List.mem_append] at hb
  exact ordered.2.2 a ha b (hb.resolve_left left)

/-- The sum stays the total of the costs along sheds of committed terminals. -/
theorem State.accountsSound_shedAll {s : State} (hs : s.recordsSound) (h : s.accountsSound) (noted : Bool) {ids : List Nat}
    (nodup : ids.Nodup) (committed : ∀ id ∈ ids, s.recordIs id fun r => r.state.committed = true) :
    (State.shedAll noted ids s).accountsSound := by
  induction ids generalizing s with
  | nil => exact h
  | cons id ids ih =>
    obtain ⟨new, nodup⟩ := List.nodup_cons.1 nodup
    rw [State.shedAll_cons]
    refine ih ((s.engineOnly_shedTerminal noted id).recordsSound hs) ?_ nodup fun k hk q hq => ?_
    · rcases hr : s.record? id with _ | r
      · rwa [State.shedTerminal_vacant hr]
      · exact State.accountsSound_shedTerminal hs h noted hr (committed id List.mem_cons_self r hr)
    · rw [State.record?_shedTerminal_eq hs, if_neg (by rintro rfl; exact new hk)] at hq
      exact committed k (List.mem_cons_of_mem _ hk) q hq

/-- Settles O33: one shed by `State.shedTerminal_eq`; the check sheds the first terminals of the victim order
(`State.shedCheck_sheds`), and the rest is read off them. -/
theorem shedCheckEndsWithinBudget : Obligations.ShedCheckEndsWithinBudget := by
  intro s noted hs accounts t shedFrom
  obtain ⟨k, sheds⟩ := State.shedCheck_sheds hs accounts noted
  have ordered := State.victimOrder_ordered hs sheddable
  have nodup := State.victimOrder_nodup hs sheddable
  have only := s.engineOnly_shedCheck noted
  have figures := s.shedCheck_figures noted
  have isVictim (id : Nat) : id ∈ s.victimOrder sheddable ↔
      ∃ r, s.record? id = some r ∧ r.state.committed = true ∧ 0 < r.cost := by
    simp only [State.mem_victimOrder hs, sheddable, Bool.and_eq_true, decide_eq_true_eq]
  have victim {id : Nat} {r : Record} (hr : s.record? id = some r) (hm : id ∈ s.victimOrder sheddable) :
      r.state.committed = true ∧ 0 < r.cost := by
    obtain ⟨q, hq, hv⟩ := (isVictim id).1 hm
    rw [hr] at hq
    cases hq
    exact hv
  have bEff : t.ac.bEff = s.ac.bEff := by
    have same := congrArg Ac.bEff figures
    exact same
  have effLevel : t.ac.effLevel = s.ac.effLevel := by
    have same := congrArg Ac.effLevel figures
    exact same
  have sound : t.accountsSound := by
    change (s.shedCheck noted).accountsSound
    rw [sheds.reached]
    refine State.accountsSound_shedAll hs accounts noted (nodup.sublist (List.take_sublist k _)) fun id hid r hr => ?_
    exact (victim hr (List.mem_of_mem_take hid)).1
  refine ⟨fun id r hr => State.shedTerminal_eq hs noted hr,
    ⟨_, k, ordered, isVictim, sheds.count, sheds.reached, sheds.needed⟩, sheds.room,
    fun within => State.shedCheck_within within noted, only.ids, sound, fun id r hr => ?_, fun a ra b rb ha hb hshed hkept hc hp => ?_,
    bEff, effLevel, only.mode, only.markerCount, only.stationMap, only.paths, only.insertion, only.lm, only.mp, only.uq, ?_,
    only.params, only.inFlight, only.pending⟩
  · have after := sheds.record? hs nodup id
    by_cases hm : id ∈ (s.victimOrder sheddable).take k
    · rw [if_pos hm, hr] at after
      obtain ⟨committed, cost⟩ := victim hr (List.mem_of_mem_take hm)
      refine .inr ⟨committed, cost, after, ?_⟩
      change id ∈ (s.shedCheck noted).ac.waitList
      rw [sheds.reached]
      exact State.mem_waitList_shedAll hs noted (.inr ⟨hm, r, hr⟩)
    · rw [if_neg hm, hr] at after
      exact .inl after
  · have taken := sheds.mem_of_shed hs nodup ha hshed
    refine State.outranks_of_left ordered taken ((isVictim b).2 ⟨rb, hb, hc, hp⟩) fun hm => ?_
    have after := sheds.record? hs nodup b
    rw [if_pos hm, hb] at after
    have shed : rb = shedRecord s.si.markerCount rb := Option.some.inj (hkept.symm.trans after)
    rw [shed] at hc
    cases hc
  · change (s.shedCheck noted).ot = s.ot
    rw [sheds.reached]
    exact State.shedAll_ot hs noted _

/-! ## The head of the wait list (R132 to R135) -/

section
variable {s : State} {n id : Nat} {rest : List Nat} {r : Record} (hl : s.ac.waitList = id :: rest) (hr : s.record? id = some r)
include hl

theorem State.admissionPass_of_shed (hn : id ∈ s.ac.shedNote) : State.admissionPass (n + 1) s = s := by
  simp only [State.admissionPass, hl, if_pos hn]

include hr

theorem State.admissionPass_of_fits (hn : id ∉ s.ac.shedNote)
    (fits : s.ac.committedSum + airtimeCost s.lm.profiles r.load r.profile ≤ s.ac.bEff) :
    State.admissionPass (n + 1) s =
      State.admissionPass n (s.admitTerminal id (airtimeCost s.lm.profiles r.load r.profile)) := by
  simp only [State.admissionPass, hl, if_neg hn, hr, if_pos fits]

theorem State.admissionPass_of_over (hn : id ∉ s.ac.shedNote)
    (tooMuch : s.ac.bEff < s.ac.committedSum + airtimeCost s.lm.profiles r.load r.profile) :
    State.admissionPass (n + 1) s =
      if s.ac.committedSum + airtimeCost s.lm.profiles r.load r.profile - s.ac.bEff ≤ s.preemptibleCost r.cls.code then
        State.admissionPass n ((State.makeRoom r.cls.code (airtimeCost s.lm.profiles r.load r.profile) s.tt.records.length
          s).admitTerminal id (airtimeCost s.lm.profiles r.load r.profile))
      else s := by
  simp only [State.admissionPass, hl, if_neg hn, hr, if_neg (Nat.not_le.2 tooMuch)]

end

/-- A waiting terminal is no victim. -/
theorem preemptible_of_waiting {headClass : Nat} {r : Record} (hw : r.state.waiting = true) : preemptible headClass r = false := by
  have notCommitted := (TState.not_committed_of_waiting hw).2.2.2
  simp only [preemptible, sheddable, notCommitted, Bool.false_and]

/-- Settles O50: the pass by the head of the list; room is made by `State.makeRoom_sheds`, and leaves the head as it was. -/
theorem admissionPassWeighsTheHead : Obligations.AdmissionPassWeighsTheHead := by
  refine ⟨fun s => ⟨rfl, rfl⟩, fun s n hl => ?_, ?_⟩
  · cases n with
    | zero => rfl
    | succ n => simp only [State.admissionPass, hl]
  · intro s n id rest r hs hl hr e cost preempted admitted
    have admits {u : State} (hu : u.recordsSound) (known : u.record? id = some r) : u.admitTerminal id cost = admitted u :=
      State.admitTerminal_of_record hu known cost
    refine ⟨State.admissionPass_of_shed hl, fun hn fits => ?_, fun hn tooMuch lacks => ?_, fun hn hw tooMuch enough counted => ?_⟩
    · rw [State.admissionPass_of_fits hl hr hn fits]
      exact congrArg (State.admissionPass n) (admits hs hr)
    · rw [State.admissionPass_of_over hl hr hn tooMuch]
      exact if_neg (Nat.not_le.2 lacks)
    · obtain ⟨k, sheds⟩ := State.makeRoom_sheds hs (headClass := r.cls.code) (cost := cost) counted (by
        have : s.ac.committedSum + cost - s.ac.bEff ≤ s.preemptibleCost r.cls.code := enough
        omega)
      have nodup := State.victimOrder_nodup hs (preemptible r.cls.code)
      have victim (j : Nat) : j ∈ s.victimOrder (preemptible r.cls.code) ↔ ∃ q, (j, q) ∈ preempted := by
        rw [State.mem_victimOrder hs]
        refine exists_congr fun q => ⟨fun ⟨hq, hp⟩ => List.mem_filter.2 ⟨State.record?_mem hq, hp⟩, fun hm => ?_⟩
        obtain ⟨hq, hp⟩ := List.mem_filter.1 hm
        exact ⟨State.mem_record? hs hq, hp⟩
      have kept (j : Nat) (q : Record) (hq : s.record? j = some q) (hp : (j, q) ∉ preempted) :
          (State.makeRoom r.cls.code cost s.tt.records.length s).record? j = some q := by
        rw [sheds.record? hs nodup, if_neg, hq]
        intro hm
        obtain ⟨q', hm'⟩ := (victim j).1 (List.mem_of_mem_take hm)
        have other := State.mem_record? hs (List.mem_of_mem_filter hm')
        rw [hq] at other
        cases other
        exact hp hm'
      have head := kept id r hr fun hm => by
        have meets := (List.mem_filter.1 hm).2
        have not := preemptible_of_waiting (headClass := r.cls.code) hw
        exact Bool.false_ne_true (not.symm.trans meets)
      have only := State.engineOnly_makeRoom r.cls.code cost s.tt.records.length s
      refine ⟨_, s.victimOrder (preemptible r.cls.code), k, ?_, State.victimOrder_ordered hs _, victim, sheds.count,
        sheds.reached, sheds.needed, sheds.room, ?_, kept⟩
      · rw [State.admissionPass_of_over hl hr hn tooMuch]
        exact (if_pos enough).trans (congrArg (State.admissionPass n) (admits (only.recordsSound hs) head))
      · rw [sheds.reached]
        exact State.shedAll_bEff ..

end Sys2Proof.Machine
end

section
/-! The account under the operations of LM, OT, RU, MP and AC on records (R43, R44, R54, R59, R70, R94, R126, R127, R130, R134): each
keeps it, and a shed check brings the sum back within B_eff. -/

namespace Sys2Proof.Machine

open Sys2Proof

/-- A change that writes neither state, class, cost, load nor profile is none the account notices. -/
theorem Record.SameAccount.of_eq {current : Prop} {r q : Record} (cls : q.cls = r.cls) (state : q.state = r.state)
    (cost : q.cost = r.cost) (load : q.load = r.load) (profile : q.profile = r.profile) : r.SameAccount current q :=
  ⟨cls, by rw [state], by rw [state], cost, fun _ _ => ⟨load, profile⟩⟩

/-- A move between two states of the same standing. -/
theorem Record.SameAccount.of_state {current : Prop} {r : Record} {state : TState} (waiting : state.waiting = r.state.waiting)
    (committed : state.committed = r.state.committed) {q : Record} (moved : q.state = state) (cls : q.cls = r.cls)
    (cost : q.cost = r.cost) (load : q.load = r.load) (profile : q.profile = r.profile) : r.SameAccount current q :=
  ⟨cls, by rw [moved, waiting], by rw [moved, committed], cost, fun _ _ => ⟨load, profile⟩⟩

/-- A record that is not committed carries no tariff. -/
theorem Record.SameAccount.of_not_committed {current : Prop} {r q : Record} (hc : r.state.committed = false)
    (cls : q.cls = r.cls) (waiting : q.state.waiting = r.state.waiting) (committed : q.state.committed = false)
    (cost : q.cost = r.cost) : r.SameAccount current q :=
  ⟨cls, waiting, committed.trans hc.symm, cost, fun _ h => absurd (hc.symm.trans h) Bool.false_ne_true⟩

theorem sameAccount_holdOffVisit (current : Prop) (now : MarkerCount) (r : Record) : r.SameAccount current (holdOffVisit now r) := by
  simp only [holdOffVisit]
  split_ifs with hl
  · exact .of_state (state := .polling) (by rw [hl]; rfl) (by rw [hl]; rfl) rfl rfl rfl rfl rfl
  · exact .of_eq rfl rfl rfl rfl rfl
  · exact .refl _ r

theorem sameAccount_probationVisit (current : Prop) (r : Record) : r.SameAccount current (probationVisit r) := by
  simp only [probationVisit]
  split_ifs
  · exact .of_eq rfl rfl rfl rfl rfl
  · exact .of_eq rfl rfl rfl rfl rfl
  · exact .refl _ r

/-- A lost record is neither committed nor on the wait list (R59). -/
theorem lostRecord_leaves (base : Nat) (now : MarkerCount) (reason : LossReason) (r : Record) :
    (lostRecord base now reason r).state.waiting = false ∧ (lostRecord base now reason r).state.committed = false := by
  simp only [lostRecord, stateAfterLoss]
  split_ifs <;> exact ⟨rfl, rfl⟩

/-- What the preemptible terminals would free is part of the total (R122, R133). -/
theorem State.preemptibleCost_le {s : State} (h : s.accountsSound) (headClass : Nat) :
    s.preemptibleCost headClass ≤ s.ac.committedSum := by
  have each (r : Record) : costAmong (preemptible headClass) r ≤ committedCost r := by
    simp only [costAmong]
    split
    · next hp =>
      simp only [preemptible, Bool.and_eq_true] at hp
      exact Nat.le_of_eq (if_pos (State.Shows.committed_of_sheddable hp.1)).symm
    · exact Nat.zero_le _
  rw [State.preemptibleCost, ← recordSum_costAmong, h.1, committedTotal_eq]
  exact List.sum_le_sum fun e _ => each e.2

namespace State.Account

variable {current within : Prop} {s : State} {id : Nat} {r : Record}

/-- Changes of a committed record that the account does not notice leave it committed. -/
theorem update_committed (h : s.Account current within) (hc : s.recordIs id fun r => r.state.committed = true)
    {f : Record → Record} (same : s.recordIs id fun r => r.SameAccount current (f r)) :
    (s.update id f).Account current within ∧ (s.update id f).recordIs id fun r => r.state.committed = true :=
  ⟨h.update same, State.recordIs_update fun r hr => (same r hr).committed.trans (hc r hr)⟩

/-! ### Losses, sheds and admissions -/

theorem lose (h : s.Account current within) (reason : LossReason) (id : Nat) : (s.lose reason id).Account current within := by
  rcases hr : s.record? id with _ | r
  · rwa [State.lose, State.withRecord_vacant hr]
  · obtain ⟨notWaiting, notCommitted⟩ := lostRecord_leaves s.params.holdOffBase s.si.markerCount reason r
    have lost := h.leave hr (q := lostRecord s.params.holdOffBase s.si.markerCount reason r) rfl notWaiting notCommitted rfl
    rw [State.lose_of_record h.records hr]
    dsimp only
    split
    · exact (lost.notify _ _ _).notify _ _ _
    · exact lost.notify _ _ _

theorem shedTerminal (h : s.Account current within) (hr : s.record? id = some r) (hc : r.state.committed = true) (noted : Bool) :
    (s.shedTerminal noted id).Account current within := by
  have notListed := h.not_listed hr (TState.waiting_of_committed hc)
  have shed : (s.shedTerminal noted id).tt.records = (s.put id (shedRecord s.si.markerCount r)).tt.records := by
    rw [State.shedTerminal_of_record h.records hr]
    exact congrArg Tt.records (State.notify_tt _ _ _ _)
  refine h.replace hr (q := shedRecord s.si.markerCount r) rfl (fun _ => rfl) (fun _ hc => by cases hc) (fun w => ?_) shed ?_ ?_
    (s.engineOnly_shedTerminal noted id).lm (s.shedTerminal_bEff noted id)
  · exact (Nat.sub_le _ _).trans (h.budget w)
  · rw [State.shedTerminal_sum h.records hr, committedCost, committedCost, if_pos hc]
    rfl
  · rw [State.shedTerminal_waitList h.records hr, State.listWith, if_neg notListed]
    rfl

theorem shedUntil (h : s.Account current within) {among : Record → Bool}
    (committed : ∀ r, among r = true → r.state.committed = true) (noted : Bool) (extra n : Nat) :
    (State.shedUntil noted among extra n s).Account current within := by
  induction n generalizing s with
  | zero => exact h
  | succ n ih =>
    rw [State.shedUntil]
    split
    · exact h
    · split
      · exact h
      · next hv =>
        obtain ⟨⟨r, hr, meets⟩, -⟩ := State.victim?_spec h.records hv
        exact ih (h.shedTerminal hr (committed r meets) noted)

/-- A shed check ends within B_eff (R126). -/
theorem shedCheck (h : s.Account current within) (noted : Bool) : (s.shedCheck noted).Account current True := by
  obtain ⟨k, sheds⟩ := State.shedCheck_sheds h.records h.sums noted
  have kept := h.shedUntil (fun _ hv => State.Shows.committed_of_sheddable hv) noted 0 s.tt.records.length
  rw [← State.shedWhileOver_eq] at kept
  exact { kept with budget := fun _ => sheds.room }

theorem makeRoom (h : s.Account current within) (headClass cost n : Nat) :
    (State.makeRoom headClass cost n s).Account current within := by
  rw [State.makeRoom_eq]
  refine h.shedUntil (fun _ hv => ?_) true cost n
  simp only [preemptible, Bool.and_eq_true] at hv
  exact State.Shows.committed_of_sheddable hv.1

theorem admitTerminal (h : s.Account current within) (hr : s.record? id = some r) (hw : r.state.waiting = true) {cost : Nat}
    (hcost : cost = airtimeCost s.lm.profiles r.load r.profile) (fits : s.ac.committedSum + cost ≤ s.ac.bEff) :
    (s.admitTerminal id cost).Account current within := by
  have nothing : committedCost r = 0 := if_neg (Bool.eq_false_iff.1 (TState.not_committed_of_waiting hw).2.2.2)
  have admitted : committedCost (admittedRecord cost r) = cost := rfl
  have account : (State.put { s with ac := { s.ac with
      waitList := s.ac.waitList.filter (· ≠ id), committedSum := s.ac.committedSum + cost } } id
      (admittedRecord cost r)).Account current within :=
    h.replace hr (q := admittedRecord cost r) rfl (fun hc => by cases hc) (fun _ _ => hcost)
      (fun _ => by rwa [nothing, admitted]) rfl (by rw [nothing, admitted]; rfl) rfl rfl rfl
  rw [State.admitTerminal_of_record h.records hr]
  exact account.notify _ _ _

/-- The pass admits within B_eff, and where it makes room the head stands as it was (R132 to R134). -/
theorem admissionPass (h : s.Account current within) (n : Nat) : (State.admissionPass n s).Account current within := by
  induction n generalizing s with
  | zero => exact h
  | succ n ih =>
    rcases hl : s.ac.waitList with _ | ⟨id, rest⟩
    · simp only [State.admissionPass, hl]
      exact h
    by_cases hn : id ∈ s.ac.shedNote
    · rwa [State.admissionPass_of_shed hl hn]
    obtain ⟨r, hr, hw⟩ := h.waitSound.waiters id (hl ▸ List.mem_cons_self)
    by_cases fits : s.ac.committedSum + airtimeCost s.lm.profiles r.load r.profile ≤ s.ac.bEff
    · rw [State.admissionPass_of_fits hl hr hn fits]
      exact ih (h.admitTerminal hr hw rfl fits)
    rw [State.admissionPass_of_over hl hr hn (Nat.not_le.1 fits)]
    split
    · next enough =>
      have counted := State.preemptibleCost_le h.sums r.cls.code
      obtain ⟨k, sheds⟩ := State.makeRoom_sheds h.records (headClass := r.cls.code)
        (cost := airtimeCost s.lm.profiles r.load r.profile) counted (by omega)
      have notVictim : id ∉ s.victimOrder (preemptible r.cls.code) := fun hm => by
        obtain ⟨q, hq, hp⟩ := (State.mem_victimOrder h.records _ id).1 hm
        rw [hr] at hq
        cases hq
        rw [preemptible_of_waiting hw] at hp
        cases hp
      have head := sheds.record? h.records (State.victimOrder_nodup h.records _) id
      rw [if_neg fun hm => notVictim (List.mem_of_mem_take hm), hr] at head
      have lm := (State.engineOnly_makeRoom r.cls.code (airtimeCost s.lm.profiles r.load r.profile) s.tt.records.length s).lm
      exact ih ((h.makeRoom _ _ _).admitTerminal head hw (by rw [lm]) sheds.room)
    · exact h

/-! ### Reports LM counts -/

/-- A change of profile moves the sum with the cost; where it rises, the shed check follows (R54, R55). -/
theorem changeProfile (h : s.Account current within) (hc : s.recordIs id fun r => r.state.committed = true) (p : Nat) :
    (s.changeProfile id p).Account current within := by
  rcases hr : s.record? id with _ | r
  · rwa [State.changeProfile, State.withRecord_vacant hr]
  by_cases hp : p = r.profile
  · rwa [hp, State.changeProfile_same hr]
  have committed := hc r hr
  have before : committedCost r = r.cost := if_pos committed
  have after : committedCost (reprofiled s.lm.profiles p r) = airtimeCost s.lm.profiles r.load p := if_pos committed
  have notWaiting : (reprofiled s.lm.profiles p r).state.waiting = false := TState.waiting_of_committed committed
  have changed {within' : Prop} (weaker : within' → within) (fits : within' → airtimeCost s.lm.profiles r.load p ≤ r.cost) :
      ((s.setSum (s.ac.committedSum + airtimeCost s.lm.profiles r.load p - r.cost)).put id
        (reprofiled s.lm.profiles p r)).Account current within' := by
    refine (h.rebudget weaker).replace hr (q := reprofiled s.lm.profiles p r) rfl (fun hn => ?_) (fun _ _ => rfl) (fun w => ?_)
      rfl (by rw [before, after]; rfl) ?_ rfl rfl
    · exact absurd (committed.symm.trans hn) (by decide)
    · have := h.budget (weaker w)
      have := fits w
      omega
    · exact (State.listWith_of_not_listed (h.not_listed hr (TState.waiting_of_committed committed)) notWaiting).symm
  rw [State.changeProfile_of_ne h.records hr hp]
  dsimp only
  split
  · exact (((changed False.elim False.elim).notify _ _ _).shedCheck false).ofWithin
  · next hle => exact (changed (fun w => w) fun _ => Nat.not_lt.1 hle).notify _ _ _

theorem selectCommitted (h : s.Account current within) (hc : s.recordIs id fun r => r.state.committed = true) :
    (s.selectCommitted id).Account current within := h.withRecord fun _ _ => h.changeProfile hc _

/-- Silent selection is of a terminal that bears no cost (R53). -/
theorem selectSilently (h : s.Account current within) (hc : s.recordIs id fun r => r.state.committed = false) :
    (s.selectSilently id).Account current within :=
  h.update fun r hr => .of_not_committed (hc r hr) rfl rfl (hc r hr) rfl

theorem countFailure (h : s.Account current within) (id : Nat) (o : BurstOutcome) :
    (s.countFailure id o).Account current within :=
  h.withRecord fun r hr => by
    split
    · exact h.lose _ _
    · have counted : (s.update id fun q => { q with fade := r.fade + fadeStep o }).Account current within :=
        h.update fun _ _ => .of_eq rfl rfl rfl rfl rfl
      dsimp only
      split
      · exact counted.notify _ _ _
      · exact counted

theorem enterFading (h : s.Account current within) (hs : s.recordIs id fun r => r.state = .inService) :
    (s.enterFading id).Account current within :=
  h.withRecord fun r hr => by
    obtain ⟨faded, committed⟩ := h.update_committed (id := id) (f := fun r => { r with state := .fading })
      (fun q hq => (congrArg TState.committed (hs q hq) : q.state.committed = true)) fun q hq =>
        .of_state (state := .fading) (by rw [hs q hq]; rfl) (by rw [hs q hq]; rfl)
          rfl rfl rfl rfl rfl
    dsimp only
    split
    · exact (faded.notify _ _ _).changeProfile (State.recordIs_notify committed _ _ _) _
    · exact faded.notify _ _ _

theorem failedReport (h : s.Account current within) (id : Nat) (o : BurstOutcome) :
    (s.failedReport id o).Account current within :=
  (h.countFailure id o).withRecord fun r hr => by
    split
    · next hf => exact (h.countFailure id o).enterFading (State.recordIs_of_record? hr hf.1)
    · exact h.countFailure id o

theorem goodReport (h : s.Account current within) (hc : s.recordIs id fun r => r.state.committed = true) :
    (s.goodReport id).Account current within ∧ (s.goodReport id).recordIs id fun r => r.state.committed = true := by
  rcases hr : s.record? id with _ | r
  · rw [State.goodReport, State.withRecord_vacant hr]
    exact ⟨h, hc⟩
  rw [State.goodReport, State.withRecord_of_record? hr]
  split
  · exact ⟨h, hc⟩
  obtain ⟨counted, committed⟩ := h.update_committed hc (f := fun q => { q with fade := r.fade - 1 })
    fun _ _ => .of_eq rfl rfl rfl rfl rfl
  dsimp only
  split
  · next hf =>
    have fading : (s.update id fun q => { q with fade := r.fade - 1 }).recordIs id fun q => q.state = .fading :=
      State.recordIs_update (State.recordIs_of_record? hr hf.1)
    obtain ⟨exited, committed⟩ := counted.update_committed committed (f := fun q => { q with state := .inService }) fun q hq =>
      .of_state (state := .inService) (by rw [fading q hq]; rfl) (by rw [fading q hq]; rfl) rfl rfl rfl rfl rfl
    exact ⟨exited.notify _ _ _, State.recordIs_notify committed _ _ _⟩
  · exact ⟨counted, committed⟩

theorem confirmIfWaiting (h : s.Account current within) (hc : s.recordIs id fun r => r.state.committed = true) :
    (s.confirmIfWaiting id).Account current within ∧ (s.confirmIfWaiting id).recordIs id fun r => r.state.committed = true := by
  rcases hr : s.record? id with _ | r
  · rw [State.confirmIfWaiting, State.withRecord_vacant hr]
    exact ⟨h, hc⟩
  rw [State.confirmIfWaiting, State.withRecord_of_record? hr]
  split
  · next hs =>
    obtain ⟨confirmed, committed⟩ := h.update_committed hc (f := confirmedRecord s.params.probationStart)
      (State.recordIs_of_record? hr (.of_state (state := .inService) (by rw [hs]; rfl) (by rw [hs]; rfl) rfl rfl rfl rfl rfl))
    have after : (s.update id (confirmedRecord s.params.probationStart)).record? id =
        some (confirmedRecord s.params.probationStart r) := by
      rw [State.record?_update, if_pos rfl, hr]
      rfl
    rw [State.restore, State.withRecord_of_record? after]
    obtain ⟨restored, committed⟩ := confirmed.update_committed committed
      (f := restoredRecord s.params.probationLength s.si.markerCount) fun _ _ => .of_eq rfl rfl rfl rfl rfl
    exact ⟨restored.notify _ _ _, State.recordIs_notify committed _ _ _⟩
  · exact ⟨h, hc⟩

theorem grantReport (h : s.Account current within) (id : Nat) (o : BurstOutcome) (snr : Int) :
    (s.grantReport id o snr).Account current within :=
  h.withRecord fun r hr => by
    split
    · next hc =>
      cases o with
      | good =>
        obtain ⟨good, committed⟩ := h.goodReport (State.recordIs_of_record? hr hc)
        obtain ⟨confirmed, committed⟩ := good.confirmIfWaiting committed
        obtain ⟨averaged, committed⟩ := confirmed.update_committed committed
          (f := averageInto ((s.goodReport id).confirmIfWaiting id).params.snrShift snr) fun _ _ => .of_eq rfl rfl rfl rfl rfl
        exact averaged.selectCommitted committed
      | crcBad => exact h.failedReport id _
      | missed => exact h.failedReport id _
    · exact h

theorem countKeepalive (h : s.Account current within) (select : Bool) (hs : s.recordIs id fun r => r.state = .shed)
    (o : BurstOutcome) (snr : Int) : (State.countKeepalive select s id o snr).Account current within := by
  simp only [State.countKeepalive]
  split
  · have counted : (s.update id fun r => { r with fade := r.fade - 1 }).Account current within :=
      h.update fun _ _ => .of_eq rfl rfl rfl rfl rfl
    have averaged : ((s.update id fun r => { r with fade := r.fade - 1 }).update id
        (averageInto s.params.snrShift snr)).Account current within := counted.update fun _ _ => .of_eq rfl rfl rfl rfl rfl
    exact averaged.selectSilently (State.recordIs_update (State.recordIs_update fun r hr =>
      (congrArg TState.committed (hs r hr) : r.state.committed = false)))
  · split
    · next hsel =>
      exact (h.countFailure id _).selectSilently fun r hr =>
        congrArg TState.committed (State.EngineSound.stateIs_of_stateOf hsel.2 r hr)
    · exact h.countFailure id _

/-! ### Ranging and polls -/

theorem ranged (h : s.Account current within) (hs : s.recordIs id fun r => r.state = .ranging) :
    (s.ranged id).Account current within := by
  rcases hr : s.record? id with _ | r
  · rwa [State.ranged, State.withRecord_vacant hr]
  have state := hs r hr
  have notCommitted : r.state.committed = false := by rw [state]; rfl
  have notWaiting : r.state.waiting = false := by rw [state]; rfl
  by_cases hq : r.holdReq = true
  · rw [State.ranged_of_holdReq h.records hr hq]
    have held := h.put hr (q := { rangedRecord s.lm.profiles r with state := .held, holdReq := false, message := none })
      (.of_not_committed notCommitted rfl notWaiting.symm rfl rfl)
    exact held.notify _ _ _
  · have notListed := h.not_listed hr notWaiting
    have noCost (q : Record) (hq : q.state.committed = false) : committedCost q = 0 := if_neg (Bool.eq_false_iff.1 hq)
    rw [State.ranged_of_free h.records hr (Bool.eq_false_iff.2 hq)]
    refine h.replace hr (q := { rangedRecord s.lm.profiles r with state := .admitWait }) rfl
      (fun _ => h.sums.2 _ (State.record?_mem hr) notCommitted) (fun _ hc => by cases hc) (fun w => ?_) rfl ?_ ?_ rfl rfl
    · rw [noCost _ notCommitted, noCost { rangedRecord s.lm.profiles r with state := .admitWait } rfl]
      exact h.budget w
    · rw [noCost _ notCommitted, noCost { rangedRecord s.lm.profiles r with state := .admitWait } rfl]
      rfl
    · have order : (s.put id { rangedRecord s.lm.profiles r with state := .admitWait }).outranks = s.outranks :=
        State.outranks_congr fun k => by
          by_cases hk : k = id
          · rw [hk, State.record?_put_self hr, hr]
            rfl
          · rw [State.record?_put_of_ne hk]
      rw [State.listWith, if_neg notListed, State.joinWaitList_ac, order]
      rfl

theorem attempt (h : s.Account current within) (id : Nat) (message : Option Message) :
    (s.attempt id message).Account current within :=
  h.withRecord fun _ _ => by
    split
    · exact h.update fun _ _ => .of_eq rfl rfl rfl rfl rfl
    · exact h.lose _ _

theorem measure (h : s.Account current within) (hs : s.recordIs id fun r => r.state = .ranging) (m : Measurement) :
    (s.measure id m).Account current within := by
  simp only [State.measure]
  split
  · have measured : (s.update id (measuredRecord s.params.snrShift m)).Account current within :=
      h.update fun _ _ => .of_eq rfl rfl rfl rfl rfl
    split
    · exact measured.ranged (State.recordIs_update hs)
    · exact measured.attempt id _
  · exact h.attempt id none

theorem firstMeasurement (h : s.Account current within) (hs : s.recordIs id fun r => r.state = .ranging) (m : Measurement) :
    (s.firstMeasurement id m).Account current within :=
  measure (h.update (f := fun r => { r with attempts := 0 }) fun _ _ => .of_eq rfl rfl rfl rfl rfl)
    (State.recordIs_update hs) m

/-- A terminal in LOST or POLLING, which neither waits nor bears a cost, begins to range (R93, R99). -/
theorem toRanging (h : s.Account current within) {f : Record → Record}
    (hs : s.recordIs id fun r => r.state = .lost ∨ r.state = .polling) (state : ∀ r, (f r).state = .ranging)
    (cls : ∀ r, (f r).cls = r.cls) (cost : ∀ r, (f r).cost = r.cost) : (s.update id f).Account current within :=
  h.update fun r hr => .of_not_committed (by rcases hs r hr with hs | hs <;> rw [hs] <;> rfl) (cls r)
    (by rcases hs r hr with hs | hs <;> rw [state, hs] <;> rfl) (by rw [state]; rfl) (cost r)

theorem contentionListed (h : s.Account current within) (id : Nat) (m : Measurement) :
    (s.contentionListed id m).Account current within :=
  h.withRecord fun r hr => by
    have begun (hs : r.state = .lost ∨ r.state = .polling) : ((s.update id fun r =>
        { r with holdOff := 0, outstanding := none, state := .ranging }).firstMeasurement id m).Account current within :=
      firstMeasurement (h.toRanging (f := fun r => { r with holdOff := 0, outstanding := none, state := .ranging })
        (State.recordIs_of_record? hr hs) (fun _ => rfl)
        (fun _ => rfl) fun _ => rfl)
        (State.recordIs_update fun _ _ => rfl) m
    have rebooted : ((s.lose .rebooted id).firstMeasurement id m).Account current within :=
      (h.lose .rebooted id).firstMeasurement (fun q hq => by
        rw [State.record?_lose, Option.map_eq_some_iff] at hq
        obtain ⟨_, _, rfl⟩ := hq
        rfl) m
    cases hs : r.state with
    | held => exact h
    | lost => exact begun (.inl hs)
    | polling => exact begun (.inr hs)
    | ranging =>
      exact measure (h.update (f := fun r => { r with outstanding := none }) fun _ _ => .of_eq rfl rfl rfl rfl rfl)
        (State.recordIs_update (State.recordIs_of_record? hr hs)) m
    | admitWait => exact rebooted
    | confirming => exact rebooted
    | inService => exact rebooted
    | fading => exact rebooted
    | shed => exact rebooted

theorem judgePoll (h : s.Account current within) (select : Bool) (id : Nat) (m : Measurement) :
    (State.judgePoll select s id m).Account current within := by
  simp only [State.judgePoll]
  split
  · next hst =>
    have polling := State.EngineSound.stateIs_of_stateOf hst
    simp only [State.judgePolling]
    split
    · exact firstMeasurement (h.toRanging (f := fun r => { r with state := .ranging })
        (fun r hr => .inr (polling r hr)) (fun _ => rfl) (fun _ => rfl) fun _ => rfl)
        (State.recordIs_update fun _ _ => rfl) m
    · exact h.update fun _ _ => .of_eq rfl rfl rfl rfl rfl
    · exact h.update fun _ _ => .of_eq rfl rfl rfl rfl rfl
  · next hst => exact h.measure (State.EngineSound.stateIs_of_stateOf hst) m
  · next hst =>
    exact countKeepalive (h.update (f := fun r => { r with keepaliveDue := after s.si.markerCount s.params.keepaliveInterval })
      fun _ _ => .of_eq rfl rfl rfl rfl rfl) select (State.recordIs_update (State.EngineSound.stateIs_of_stateOf hst)) _ _
  · exact h

theorem cleared (h : s.Account current within) (id : Nat) : (s.update id clearPoll).Account current within :=
  h.update fun _ _ => .of_eq rfl rfl rfl rfl rfl

theorem pollReport (h : s.Account current within) (select : Bool) (id : Nat) (frame : FrameNumber) (m : Measurement) :
    (State.pollReport select s id frame m).Account current within :=
  h.withRecord fun _ _ => by
    split
    · exact (h.cleared id).judgePoll select id m
    · exact h

theorem endPoll (h : s.Account current within) (select : Bool) (n : FrameNumber) (id : Nat) :
    (State.endPoll select n s id).Account current within :=
  h.withRecord fun _ _ => by
    split
    · exact h
    · split
      · exact (h.cleared id).judgePoll select id _
      · exact h

theorem endFrame (h : s.Account current within) (select : Bool) (n : FrameNumber) :
    (State.endFrame select s n).Account current within :=
  foldl_kept (P := State.Account current within) (fun _ id hu => endPoll hu select n id) _ h

/-! ### Markers -/

theorem resolveCancel (h : s.Account current within) (id : Nat) : (s.resolveCancel id).Account current within :=
  h.withRecord fun _ _ => by
    have cleared : (s.update id fun r => { r with cancelReq := false }).Account current within :=
      h.update fun _ _ => .of_eq rfl rfl rfl rfl rfl
    dsimp only
    split
    · refine notify ?_ _ _ _
      split
      · exact (cleared.lose .cancelled id).congr rfl rfl rfl rfl rfl
      · exact cleared
    · exact h

theorem confirmVisit (h : s.Account current within) (id : Nat) : (s.confirmVisit id).Account current within :=
  h.withRecord fun _ _ => by
    split
    · exact h
    · split
      · refine h.withRecord fun _ _ => ?_
        split
        · exact h.update fun _ _ => .of_eq rfl rfl rfl rfl rfl
        · exact h.lose _ _
      · exact h.update fun _ _ => .of_eq rfl rfl rfl rfl rfl

/-- The budget stage moves B_eff alone of what the account reads (R115). -/
theorem budgetStage (h : s.Account current within) : s.budgetStage.Account current False := by
  have only := s.engineOnly_budgetStage
  have sum : s.budgetStage.ac.committedSum = s.ac.committedSum := by
    rw [State.budgetStage_eq]
    dsimp only
    split
    · rfl
    · rw [State.notify_ac]
      rfl
  have unbudgeted : State.Account current False { s with ac := { s.ac with bEff := s.budgetStage.ac.bEff } } :=
    { h with budget := False.elim }
  exact unbudgeted.congr (congrArg Tt.records s.budgetStage_tt) sum s.budgetStage_waitList only.lm rfl

/-- OT's stages and the confirm timers, which do not read the budget. -/
theorem runStage (h : s.Account current within) (rank : Nat → Nat) {stage : MarkerStage}
    (hst : stage ∈ MarkerStage.confirm :: otStages) : (runStage rank s stage).Account current within := by
  simp only [otStages, List.mem_cons, List.not_mem_nil, or_false] at hst
  rcases hst with rfl | rfl | rfl | rfl
  · exact foldl_kept (P := State.Account current within) (fun _ id hu => confirmVisit hu id) _ h
  · exact foldl_kept (P := State.Account current within) (fun _ id hu => resolveCancel hu id) _ h
  · refine h.updateAll (f := fun id r => if id ∈ s.ot.lostNow then r else holdOffVisit s.si.markerCount r) fun id r _ => ?_
    split
    · exact .refl _ r
    · exact sameAccount_holdOffVisit ..
  · exact h.updateAll fun _ r _ => sameAccount_probationVisit ..

/-- The account with OT's stages `xs` and AC's stages `ys` still to come: the sum may stand above B_eff only between the budget
stage and the shed check (R64, R126, R129). -/
def Awaiting (current : Prop) (xs ys : List MarkerStage) (s : State) : Prop :=
  xs <:+ otStages ∧ ys <:+ acStages ∧ s.Account current (ys ≠ [.shedCheck, .admission])

/-- One of OT's stages. -/
theorem Awaiting.otStage {x : MarkerStage} {xs ys : List MarkerStage} (h : Awaiting current (x :: xs) ys s) (rank : Nat → Nat) :
    Awaiting current xs ys (Machine.runStage rank s x) := by
  obtain ⟨left, right, account⟩ := h
  exact ⟨(List.suffix_cons x xs).trans left, right,
    account.runStage rank (List.mem_cons_of_mem _ (left.subset List.mem_cons_self))⟩

/-- One of AC's stages. -/
theorem Awaiting.acStage {y : MarkerStage} {xs ys : List MarkerStage} (h : Awaiting current xs (y :: ys) s) (rank : Nat → Nat) :
    Awaiting current xs ys (Machine.runStage rank s y) := by
  obtain ⟨left, right, account⟩ := h
  refine ⟨left, (List.suffix_cons y ys).trans right, ?_⟩
  simp only [acStages, List.suffix_cons_iff, List.suffix_nil, List.cons.injEq, reduceCtorEq, or_false] at right
  rcases right with ⟨rfl, rfl⟩ | ⟨rfl, rfl⟩ | ⟨rfl, rfl⟩ | ⟨rfl, rfl⟩
  · exact (account.runStage rank List.mem_cons_self).rebudget fun _ => by decide
  · exact account.budgetStage.rebudget fun hn => hn rfl
  · exact (account.shedCheck true).ofWithin
  · exact (account.admissionPass _).rebudget fun _ => by decide

/-- No interleaving of the stages ends above B_eff (log 1). -/
theorem stages (h : s.Account current True) (picks : List Bool) (rank : Nat → Nat) :
    ((interleave picks otStages acStages).foldl (Machine.runStage rank) s).Account current True := by
  have start : Awaiting current otStages acStages s := ⟨List.suffix_refl _, List.suffix_refl _, h.ofWithin⟩
  obtain ⟨-, -, done⟩ := foldl_interleave_kept (P := Awaiting current) (op := Machine.runStage rank)
    (fun _ _ _ _ hu => hu.otStage rank) (fun _ _ _ _ hu => hu.acStage rank) picks start
  exact done.rebudget fun _ => by decide

theorem markerInRun (h : s.Account current True) : s.markerInRun.Account current True := by
  have counted : s.countMarker.Account current True := h.congr rfl rfl rfl rfl rfl
  exact (counted.stages (Config.markerPicks s.raceTick) (Config.cancelRank s.raceTick)).congr rfl rfl rfl rfl rfl

end State.Account

end Sys2Proof.Machine
end

section
/-! The account under provisioning (R23 to R27), a new Profile Table (R49, R50) and the stages of the RUN entry (R12, R123): records
that come and go, classes that change, and costs that are made current. -/

namespace Sys2Proof.Machine

open Sys2Proof

/-! ## Sums over records that come and go -/

theorem recordSum_assocPut (w : Record → Nat) {l : List (Nat × Record)} {id : Nat} (h : assocGet l id = none) (q : Record) :
    recordSum w (assocPut l id q) = w q + recordSum w l := by
  induction l with
  | nil => rfl
  | cons e l ih =>
    simp only [assocGet] at h
    split at h
    · cases h
    · next ne =>
      have tail := ih h
      simp only [assocPut, if_neg ne]
      split
      · rfl
      · simp only [recordSum, List.map_cons, List.sum_cons] at tail ⊢
        omega

theorem recordSum_erase (w : Record → Nat) {l : List (Nat × Record)} (hs : (l.map (·.1)).Pairwise (· < ·)) {id : Nat}
    {r : Record} (h : (id, r) ∈ l) : recordSum w (l.filter fun e => e.1 ≠ id) + w r = recordSum w l := by
  induction l with
  | nil => cases h
  | cons e l ih =>
    obtain ⟨above, later⟩ := List.pairwise_cons.1 hs
    rcases List.mem_cons.1 h with rfl | h
    · have others : l.filter (fun e => e.1 ≠ id) = l :=
        List.filter_eq_self.2 fun e he => decide_eq_true (Nat.ne_of_gt (above _ (List.mem_map_of_mem he)))
      rw [List.filter_cons_of_neg (by simp), others]
      exact Nat.add_comm _ _
    · have ne : e.1 ≠ id := Nat.ne_of_lt (above _ (List.mem_map_of_mem h))
      have tail := ih later h
      rw [List.filter_cons_of_pos (by simp [ne])]
      simp only [recordSum, List.map_cons, List.sum_cons] at tail ⊢
      omega

/-! ## The wait list while one record comes, goes or changes its class -/

theorem State.outranks_of_same {s t : State} {a b : Nat} (ha : t.record? a = s.record? a) (hb : t.record? b = s.record? b) :
    t.outranks a b = s.outranks a b := by
  simp only [State.outranks, State.priorityKey, ha, hb]

section
variable {s t : State} {id : Nat} (hs : s.recordsSound) (ht : t.recordsSound) (h : s.waitListSound)
  (others : ∀ k, k ≠ id → t.record? k = s.record? k)
include hs h others

/-- The rest of the wait list stands in order and holds the other waiting terminals. -/
theorem State.waitList_others : ((s.ac.waitList.filter (· ≠ id)).Pairwise fun a b => t.outranks a b = true) ∧
    ∀ k, k ∈ s.ac.waitList.filter (· ≠ id) ↔ k ≠ id ∧ ∃ r, t.record? k = some r ∧ r.state.waiting = true := by
  obtain ⟨ordered, members⟩ := (State.waitListSound_iff hs).1 h
  have apart {k : Nat} (hk : k ∈ s.ac.waitList.filter (· ≠ id)) : k ≠ id := of_decide_eq_true (List.mem_filter.1 hk).2
  refine ⟨(ordered.sublist List.filter_sublist).imp_of_mem fun ha hb hab => ?_, fun k => ?_⟩
  · rwa [State.outranks_of_same (others _ (apart ha)) (others _ (apart hb))]
  · rw [List.mem_filter, decide_eq_true_eq, and_comm]
    exact and_congr_right fun hk => by rw [others k hk, members k]

include ht

/-- The wait list without a terminal that does not wait. -/
theorem State.waitListSound_left (gone : ∀ q, t.record? id = some q → q.state.waiting = false)
    (list : t.ac.waitList = s.ac.waitList.filter (· ≠ id)) : t.waitListSound := by
  obtain ⟨ordered, members⟩ := State.waitList_others hs h others
  refine (State.waitListSound_iff ht).2 ⟨by rwa [list], fun k => ?_⟩
  rw [list, members k]
  refine ⟨And.right, fun hk => ⟨?_, hk⟩⟩
  rintro rfl
  obtain ⟨q, hq, hw⟩ := hk
  exact Bool.false_ne_true ((gone q hq).symm.trans hw)

/-- A waiting terminal at the place its class gives it (R25, R124). -/
theorem State.waitListSound_rejoined {q : Record} (hq : t.record? id = some q) (hw : q.state.waiting = true)
    (list : t.ac.waitList = insertBy t.outranks id (s.ac.waitList.filter (· ≠ id))) : t.waitListSound := by
  obtain ⟨ordered, members⟩ := State.waitList_others hs h others
  refine (State.waitListSound_iff ht).2 ⟨?_, fun k => ?_⟩
  · rw [list]
    exact t.insertBy_ordered (fun hm => ((members id).1 hm).1 rfl) ordered
  · rw [list, mem_insertBy, members k]
    by_cases hk : k = id
    · rw [hk, hq]
      exact ⟨fun _ => ⟨q, rfl, hw⟩, fun _ => .inl rfl⟩
    · rw [or_iff_right hk, and_iff_right hk]

end

theorem sameAccount_reclamp (t : List ProfileEntry) (r : Record) : r.SameAccount False (reclamp t r) := by
  simp only [reclamp]
  split
  · exact ⟨rfl, rfl, rfl, rfl, False.elim⟩
  · exact .refl _ r

theorem recosted_state (t : List ProfileEntry) (r : Record) :
    (recosted t r).state = r.state ∧ (recosted t r).cls = r.cls ∧ (r.state.committed = false → recosted t r = r) := by
  simp only [recosted]
  split
  · next hc => exact ⟨rfl, rfl, fun hn => absurd (hc.symm.trans hn) (by decide)⟩
  · exact ⟨rfl, rfl, fun _ => rfl⟩

namespace State.Account

variable {current within : Prop} {s t : State} {id : Nat} {r q : Record}

/-! ### Provisioning -/

/-- A new record neither waits nor bears a cost (R24). -/
theorem create (h : s.Account current within) (hid : 1 ≤ id ∧ id ≤ Config.maxId) (hn : s.record? id = none)
    (notCommitted : q.state.committed = false) (notWaiting : q.state.waiting = false) (cost : q.cost = 0)
    (records : t.tt.records = assocPut s.tt.records id q) (ac : t.ac = s.ac) (lm : t.lm = s.lm) : t.Account current within := by
  have record (k : Nat) : t.record? k = if k = id then some q else s.record? k := by
    rw [State.record?, records]
    exact assocGet_assocPut ..
  have others (k : Nat) (hk : k ≠ id) : t.record? k = s.record? k := by rw [record, if_neg hk]
  have sound : t.recordsSound := by
    refine ⟨?_, fun k hk => ?_⟩
    · rw [State.ids, records]
      exact keys_assocPut_sorted h.records.1 _ _
    · rw [State.ids, records, mem_keys_assocPut] at hk
      rcases hk with rfl | hk
      · exact hid
      · exact h.records.2 k hk
  have nothing : committedCost q = 0 := if_neg (Bool.eq_false_iff.1 notCommitted)
  have notListed : id ∉ s.ac.waitList := fun hm => by
    obtain ⟨r, hr, -⟩ := h.waitSound.waiters id hm
    rw [hn] at hr
    cases hr
  refine ⟨sound, ⟨?_, fun e he hc => ?_⟩, ?_, fun c e he hc => ?_, fun w => ?_⟩
  · rw [ac, h.sums.1, records, committedTotal_eq, committedTotal_eq, recordSum_assocPut _ hn, nothing, Nat.zero_add]
  · rw [records] at he
    rcases mem_assocPut he with rfl | he
    · exact cost
    · exact h.sums.2 e he hc
  · refine State.waitListSound_left h.records sound h.waits others (fun p hp => ?_) ?_
    · rw [record, if_pos rfl] at hp
      cases hp
      exact notWaiting
    · rw [ac]
      exact (filter_ne_of_not_mem notListed).symm
  · rw [records] at he
    rcases mem_assocPut he with rfl | he
    · exact absurd (notCommitted.symm.trans hc) Bool.false_ne_true
    · rw [lm]
      exact h.costs c e he hc
  · rw [ac]
    exact h.budget w

/-- A record removed with its cost and its place on the wait list (R27). -/
theorem remove (h : s.Account current within) (hr : s.record? id = some r)
    (records : t.tt.records = s.tt.records.filter fun e => e.1 ≠ id)
    (sum : t.ac.committedSum = s.ac.committedSum - committedCost r)
    (list : t.ac.waitList = s.ac.waitList.filter (· ≠ id)) (lm : t.lm = s.lm) (bEff : t.ac.bEff = s.ac.bEff) :
    t.Account current within := by
  have record (k : Nat) : t.record? k = if k = id then none else s.record? k := by
    rw [State.record?, records]
    exact assocGet_assocErase ..
  have kept {e : Nat × Record} (he : e ∈ t.tt.records) : e ∈ s.tt.records := List.mem_of_mem_filter (records ▸ he)
  have sound : t.recordsSound := by
    have fewer : t.ids.Sublist s.ids := by
      rw [State.ids, records]
      exact List.filter_sublist.map _
    exact ⟨h.records.1.sublist fewer, fun k hk => h.records.2 k (fewer.subset hk)⟩
  refine ⟨sound, ⟨?_, fun e he => h.sums.2 e (kept he)⟩,
    State.waitListSound_left h.records sound h.waits (fun k hk => by rw [record, if_neg hk]) (fun p hp => ?_) list,
    fun c e he => ?_, fun w => ?_⟩
  · have exchanged := recordSum_erase committedCost h.records.1 (State.record?_mem hr)
    rw [sum, h.sums.1, records, committedTotal_eq, committedTotal_eq]
    omega
  · rw [record, if_pos rfl] at hp
    cases hp
  · rw [lm]
    exact h.costs c e (kept he)
  · rw [sum, bEff]
    exact (Nat.sub_le _ _).trans (h.budget w)

/-- New provisioning fields: a waiting terminal whose class changes moves to its new place (R25). Where costs are to be current, the
terminal bears none. -/
theorem reprovision (h : s.Account current within) (hr : s.record? id = some r) (state : q.state = r.state)
    (cost : q.cost = r.cost) (free : current → r.state.committed = false)
    (records : t.tt.records = (s.put id q).tt.records) (sum : t.ac.committedSum = s.ac.committedSum)
    (list : t.ac.waitList = if r.cls ≠ q.cls ∧ id ∈ s.ac.waitList then
      insertBy t.outranks id (s.ac.waitList.filter (· ≠ id)) else s.ac.waitList)
    (lm : t.lm = s.lm) (bEff : t.ac.bEff = s.ac.bEff) : t.Account current within := by
  have same := State.record?_congr (s := s.put id q) (t := t) records
  have others (k : Nat) (hk : k ≠ id) : t.record? k = s.record? k := by rw [same, State.record?_put_of_ne hk]
  have known : t.record? id = some q := by rw [same, State.record?_put_self hr]
  have sound : t.recordsSound :=
    (State.recordsSound_congr (by simp only [State.ids, records])).2 (s.recordsSound_put h.records id q)
  have equal : committedCost q = committedCost r := by simp only [committedCost, state, cost]
  refine ⟨sound, State.accountsSound_put h.records hr records h.sums (fun hc => ?_) ?_, ?_, fun c e he hc => ?_, fun w => ?_⟩
  · exact cost.trans (h.sums.2 _ (State.record?_mem hr) (state ▸ hc))
  · rw [sum, equal, Nat.add_sub_cancel]
  · split at list
    · next moved =>
      exact State.waitListSound_rejoined h.records sound h.waits others known
        ((congrArg TState.waiting state).trans ((h.mem_waitList hr).1 moved.2)) list
    · next stays =>
      by_cases hm : id ∈ s.ac.waitList
      · have cls : q.cls = r.cls := by
          by_contra hc
          exact stays ⟨Ne.symm hc, hm⟩
        refine State.waitListSound_put h.records hr records h.waits cls (list.trans (State.listWith_of_listed hm ?_).symm)
        exact (congrArg TState.waiting state).trans ((h.mem_waitList hr).1 hm)
      · refine State.waitListSound_left h.records sound h.waits others (fun p hp => ?_) (list.trans ?_)
        · rw [known] at hp
          cases hp
          rw [state]
          exact Bool.eq_false_iff.2 (mt (h.mem_waitList hr).2 hm)
        · exact (filter_ne_of_not_mem hm).symm
  · rw [records] at he
    rw [lm]
    obtain ⟨e', he', rfl⟩ := List.mem_map.1 he
    split at hc
    · exact absurd ((free c).symm.trans ((congrArg TState.committed state).symm.trans hc)) Bool.false_ne_true
    · next hid =>
      rw [if_neg hid]
      exact h.costs c e' he' hc
  · rw [sum, bEff]
    exact h.budget w

/-- An entry that has passed its checks: outside CONFIG it meets a VACANT or HELD ID alone (R23 to R25). -/
theorem applyEntry {e : ProvEntry} (h : s.Account (s.si.mode ≠ .config) within) (he : s.entryFailure e = none) :
    (s.applyEntry e).Account (s.si.mode ≠ .config) within := by
  rcases hr : s.record? e.id.toNat with _ | r
  · have state : (newRecord s.si.markerCount e).state.committed = false ∧ (newRecord s.si.markerCount e).state.waiting = false := by
      simp only [newRecord]
      split <;> exact ⟨rfl, rfl⟩
    rw [State.applyEntry_of_vacant hr]
    exact h.create (idRange (entryFailure_eq_none he).1) hr state.1 state.2 rfl rfl rfl rfl
  · have same : (reprovisioned s.lm.profiles e r).state = r.state ∧ (reprovisioned s.lm.profiles e r).cost = r.cost := by
      simp only [reprovisioned, reclamp]
      split <;> exact ⟨rfl, rfl⟩
    have free (hm : s.si.mode ≠ .config) : r.state.committed = false := by
      have passed : s.provisionable e.id.toNat ≠ false := fun hp => by
        simp only [State.entryFailure, hp, if_true] at he
        split_ifs at he
      rw [Ne, State.provisionable_eq_false, State.stateOf, hr] at passed
      have held : r.state = .held := by simpa [hm] using passed
      rw [held]
      rfl
    have put := State.update_eq_put h.records hr (reprovisioned s.lm.profiles e)
    rw [State.applyEntry_of_record hr]
    refine h.reprovision hr same.1 same.2 free (congrArg (·.tt.records) put) rfl ?_ rfl rfl
    rw [reprovisioned_cls]
    rfl

theorem removeRecord (h : s.Account current within) (hr : s.record? id = some r) :
    (s.removeRecord id r).Account current within := by
  rw [State.removeRecord_eq]
  refine h.remove hr rfl ?_ rfl rfl rfl
  simp only [committedCost]
  split <;> rfl

/-! ### A new Profile Table and the RUN entry -/

/-- A new table leaves costs as they were (R49). -/
theorem installProfiles (h : s.Account current within) (t : List ProfileEntry) (k : Nat) :
    (s.installProfiles t k).Account False within := by
  have loaded : State.Account False within { s with lm := { profiles := t } } := { h with costs := False.elim }
  refine updateAll (f := fun id r => if k < id then reclamp t r else r) loaded fun id r _ => ?_
  split
  · exact sameAccount_reclamp t r
  · exact .refl _ r

/-- Stage 2 makes the costs current, and their sum the committed sum (R123). -/
theorem recomputeCosts (h : s.Account current within) : s.recomputeCosts.Account True False := by
  obtain ⟨records, costs, sum⟩ := State.costsSettled_recomputeCosts h.records
  have state (r : Record) := recosted_state s.lm.profiles r
  have waits := State.waitListSound_updateAll h.records h.waits (f := fun _ => recosted s.lm.profiles)
    (fun _ r _ => (state r).2.1) fun _ r _ => congrArg TState.waiting (state r).1
  refine ⟨records, ⟨sum, fun e he hc => ?_⟩, waits, fun _ => costs, False.elim⟩
  obtain ⟨e', he', rfl⟩ := List.mem_map.1 he
  obtain ⟨same, -, idle⟩ := state e'.2
  have notCommitted : e'.2.state.committed = false := (congrArg TState.committed same).symm.trans hc
  exact (congrArg Record.cost (idle notCommitted)).trans (h.sums.2 e' he' notCommitted)

/-- The stages of a RUN entry: costs are current from stage 2 on, and the sum is within B_eff from stage 4 on (R12). -/
theorem entryStage {k : Nat} (h : s.Account (2 ≤ k) (4 ≤ k)) (hk : k < 4) :
    (s.entryStage (k + 1)).Account (2 ≤ k + 1) (4 ≤ k + 1) := by
  obtain rfl | rfl | rfl | rfl : k = 0 ∨ k = 1 ∨ k = 2 ∨ k = 3 := by omega
  · have reclamped : (s.entryStage 1).Account False False :=
      (h.weaken False.elim False.elim).updateAll fun _ r _ => sameAccount_reclamp s.lm.profiles r
    exact reclamped.weaken (by omega) (by omega)
  · exact h.recomputeCosts.weaken (fun _ => trivial) (by omega)
  · have only := s.engineOnly_entryStage 3
    have level : State.Account (2 ≤ 2) False { s with ac := { s.ac with bEff := s.entryLevel.ac.bEff } } :=
      { h with budget := False.elim }
    have reached : s.entryLevel.Account (2 ≤ 2) False :=
      level.congr (congrArg Tt.records s.entryLevel_tt) (by rw [State.entryLevel_ac]; rfl) (by rw [State.entryLevel_ac]; rfl)
        only.lm rfl
    exact reached.weaken (fun _ => Nat.le_refl 2) (by omega)
  · exact (h.shedCheck false).weaken (fun _ => by omega) fun _ => trivial

end State.Account

end Sys2Proof.Machine
end

section
/-! The law of the account over whole states (R121, R122, R124, R126, R172): the command in flight and the mode say what of the account
must hold, and each part of a step keeps it. -/

namespace Sys2Proof.Machine

open Sys2Proof

/-! ## The command in flight -/

/-- No command is in flight that stands in CONFIG: none at all, or LOAD_TERMINALS. -/
def State.flightPlain (s : State) : Prop :=
  s.mu.inFlight = none ∨ ∃ tag es k, s.mu.inFlight = some (.loadTerminals tag es k)

theorem State.flightPlain_congr {s t : State} (h : s.flightPlain) (same : t.mu.inFlight = s.mu.inFlight) : t.flightPlain := by
  rwa [State.flightPlain, same]

theorem State.flightPlain.sound {s : State} (h : s.flightPlain) : s.inFlightSound := by
  rcases h with h | ⟨tag, es, k, h⟩ <;> simp only [State.inFlightSound, h]

theorem State.flightPlain.not_suspended {s : State} (h : s.flightPlain) : s.accountsSuspended = false :=
  State.FieldsLaw.not_suspended fun tag k hk => by
    rcases h with h | ⟨_, _, _, h⟩ <;> rw [h] at hk <;> cases hk

/-- What the law says of a RUN entry in flight. -/
theorem State.inFlightSound_runEntry {s : State} {tag : Byte} {k : Nat} (h : s.mu.inFlight = some (.runEntry tag k)) :
    s.inFlightSound ↔ s.si.mode = .config ∧ (2 ≤ k → s.costsCurrent) ∧ (4 ≤ k → s.ac.committedSum ≤ s.ac.bEff) := by
  simp only [State.inFlightSound, h]

theorem State.inFlightSound_loadProfiles {s : State} {tag : Byte} {t : List ProfileEntry} {k : Nat}
    (h : s.mu.inFlight = some (.loadProfiles tag t k)) : s.inFlightSound ↔ s.si.mode = .config := by
  simp only [State.inFlightSound, h]

/-- What the law says of a sector reset in flight. -/
theorem State.inFlightSound_sectorReset {s : State} {tag : Byte} {k : Nat} (h : s.mu.inFlight = some (.sectorReset tag k)) :
    s.inFlightSound ↔ 1 ≤ k ∧ s.si.mode = .config ∧
      (k = 2 → ∀ e ∈ s.tt.records, e.2.state.committed = false ∧ e.2.state.waiting = false ∧ e.2.cost = 0) := by
  simp only [State.inFlightSound, h]

/-- Outside CONFIG the command in flight, if any, is LOAD_TERMINALS. -/
theorem State.flightPlain_of_mode {s : State} (h : s.inFlightSound) (hm : s.si.mode ≠ .config) : s.flightPlain := by
  rcases hf : s.mu.inFlight with _ | c
  · exact .inl hf
  · cases c with
    | loadTerminals tag es k => exact .inr ⟨tag, es, k, hf⟩
    | loadProfiles tag t k => exact absurd ((State.inFlightSound_loadProfiles hf).1 h) hm
    | runEntry tag k => exact absurd ((State.inFlightSound_runEntry hf).1 h).1 hm
    | sectorReset tag k => exact absurd ((State.inFlightSound_sectorReset hf).1 h).2.1 hm

theorem State.reset_not_suspended {s : State} {tag : Byte} {k : Nat} (h : s.mu.inFlight = some (.sectorReset tag k))
    (hk : k ≠ 2) : s.accountsSuspended = false := by
  simp only [State.accountsSuspended, h, beq_eq_false_iff_ne, ne_eq, hk, not_false_eq_true]

namespace State.ledgerSound

variable {s t : State}

/-! ## The law and the account -/

theorem records (h : s.ledgerSound) : s.recordsSound := h.1

theorem flight (h : s.ledgerSound) : s.inFlightSound := h.2.2.2

/-- Outside CONFIG costs are current and the sum is within B_eff. -/
theorem account (h : s.ledgerSound) (hs : s.accountsSuspended = false) :
    s.Account (s.si.mode ≠ .config) (s.si.mode ≠ .config) := by
  obtain ⟨records, accounts, budget, -⟩ := h
  exact ⟨records, (accounts hs).1, (accounts hs).2, fun hm => (budget hm).2, fun hm => (budget hm).1⟩

theorem of_account (a : t.Account (t.si.mode ≠ .config) (t.si.mode ≠ .config)) (flight : t.inFlightSound) : t.ledgerSound :=
  ⟨a.records, fun _ => ⟨a.sums, a.waits⟩, fun hm => ⟨a.budget hm, a.costs hm⟩, flight⟩

/-- In CONFIG the law asks for the sum and the wait list alone. -/
theorem of_config (a : t.Account False False) (hm : t.si.mode = .config) (flight : t.inFlightSound) : t.ledgerSound :=
  of_account (a.weaken (fun h => h hm) fun h => h hm) flight

/-- In RUN and COASTING it asks for current costs and a sum within B_eff. -/
theorem of_strict (a : t.Account True True) (plain : t.flightPlain) : t.ledgerSound :=
  of_account (a.weaken (fun _ => trivial) fun _ => trivial) plain.sound

theorem strict (h : s.ledgerSound) (hm : s.si.mode ≠ .config) : s.Account True True :=
  (h.account (State.flightPlain_of_mode h.flight hm).not_suspended).weaken (fun _ => hm) fun _ => hm

/-- What the law reads of a state. -/
theorem congr (h : s.ledgerSound) (records : t.tt.records = s.tt.records) (sum : t.ac.committedSum = s.ac.committedSum)
    (list : t.ac.waitList = s.ac.waitList) (lm : t.lm = s.lm) (bEff : t.ac.bEff = s.ac.bEff)
    (inFlight : t.mu.inFlight = s.mu.inFlight) (mode : t.si.mode = s.si.mode) : t.ledgerSound := by
  have sound : t.recordsSound := (State.recordsSound_congr (by simp only [State.ids, records])).2 h.records
  have suspended : t.accountsSuspended = s.accountsSuspended := by simp only [State.accountsSuspended, inFlight]
  have flight : t.inFlightSound := by
    simpa only [State.inFlightSound, State.costsCurrent, inFlight, mode, records, lm, sum, bEff] using h.flight
  refine ⟨sound, fun hs => ?_, fun hm => ?_, flight⟩
  · have account := (h.account (suspended ▸ hs)).congr records sum list lm bEff
    exact ⟨account.sums, account.waits⟩
  · have account := (h.strict (mode ▸ hm)).congr records sum list lm bEff
    exact ⟨account.budget trivial, account.costs trivial⟩

theorem notify (h : s.ledgerSound) (kind : NoticeKind) (id : Option Nat) (values : List Int) :
    (s.notify kind id values).ledgerSound :=
  h.congr (by simp) (by simp) (by simp) (by simp) (by simp) (by simp) (by simp)

theorem reply (h : s.ledgerSound) (tag code : Byte) (r : Reply) : (s.reply tag code r).ledgerSound :=
  h.congr rfl rfl rfl rfl rfl rfl rfl

/-- Records and accounts changed, the mode and the command in flight kept. -/
theorem of_same (plain : s.flightPlain) (a : t.Account (s.si.mode ≠ .config) (s.si.mode ≠ .config))
    (mode : t.si.mode = s.si.mode) (inFlight : t.mu.inFlight = s.mu.inFlight) : t.ledgerSound :=
  of_account (mode ▸ a) (State.flightPlain_congr plain inFlight).sound

/-- An operation on records in RUN. -/
theorem of_run (h : s.ledgerSound) (hm : s.si.mode = .run) (only : s.EngineOnly t) (a : t.Account True True) : t.ledgerSound :=
  of_strict a (State.flightPlain_congr (State.flightPlain_of_mode h.flight (by rw [hm]; decide)) only.inFlight)

theorem run (h : s.ledgerSound) (hm : s.si.mode = .run) : s.Account True True := h.strict (by rw [hm]; decide)

/-- The command in flight is answered. -/
theorem complete (a : s.Account (s.si.mode ≠ .config) (s.si.mode ≠ .config)) (tag code : Byte) (r : Reply) :
    (s.complete tag code r).ledgerSound := of_account (a.congr rfl rfl rfl rfl rfl) (State.flightPlain.sound (.inl rfl))

/-! ## Modes, markers, maps and reports -/

/-- RUN is left: no record's account is touched (R10). -/
theorem leaveRun (h : s.ledgerSound) (hm : s.si.mode = .run) (m : Mode) : (s.leaveRun m).ledgerSound := by
  have left : State.Account True True { s with si := { s.si with mode := m, watchdog := none } } :=
    (h.run hm).congr rfl rfl rfl rfl rfl
  exact of_strict (left.updateAll (f := fun _ => clearPoll) fun _ _ _ => .of_eq rfl rfl rfl rfl rfl)
    (State.flightPlain_congr (State.flightPlain_of_mode h.flight (by rw [hm]; decide)) rfl)

theorem watchdogExpires (h : s.ledgerSound) : s.watchdogExpires.ledgerSound := by
  simp only [State.watchdogExpires]
  split
  · next hm => exact ((h.leaveRun hm.1 .coasting).notify _ _ _).congr rfl rfl rfl rfl rfl rfl rfl
  · exact h

theorem markerInRun (h : s.ledgerSound) (hm : s.si.mode = .run) : s.markerInRun.ledgerSound := by
  have only := s.countMarker.engineOnly_react (Config.markerPicks s.raceTick) (Config.cancelRank s.raceTick)
  exact of_strict (h.run hm).markerInRun
    (State.flightPlain_congr (State.flightPlain_of_mode h.flight (by rw [hm]; decide)) only.inFlight)

theorem takeMarker (h : s.ledgerSound) (frame : FrameNumber) : (s.takeMarker frame).ledgerSound := by
  simp only [State.takeMarker]
  split
  · exact h.congr rfl rfl rfl rfl rfl rfl rfl
  · next hm => exact markerInRun (h.congr (t := s.recordFrame frame) rfl rfl rfl rfl rfl rfl rfl) hm
  · next hm =>
    have away : s.si.mode ≠ .config := by rw [hm]; decide
    have regained : ((s.setMode .run).recordFrame frame).ledgerSound :=
      of_strict ((h.strict away).congr rfl rfl rfl rfl rfl) (State.flightPlain_congr (State.flightPlain_of_mode h.flight away) rfl)
    exact (regained.notify .frameRegained none []).markerInRun (State.notify_mode ..)

theorem contention (h : s.ledgerSound) (hm : s.si.mode = .run) (b : Burst) : (s.contention b).ledgerSound := by
  have queued (q : List UnlistedEntry) : (s.setUnlisted q).ledgerSound := h.congr rfl rfl rfl rfl rfl rfl rfl
  simp only [State.contention]
  split
  · split
    · exact h.of_run hm (s.engineOnly_contentionListed _ _) ((h.run hm).contentionListed _ _)
    · simp only [State.screen, State.enqueueUnlisted]
      split_ifs
      · exact queued _
      · exact (queued _).notify _ _ _
      · exact h
      · exact notify (h.congr (t := s.setOverrun true) rfl rfl rfl rfl rfl rfl rfl) _ _ _
      · exact h
  · exact h

theorem editedMap (h : s.ledgerSound) (hm : s.si.mode = .run) (es : List MapEntry) (frame : FrameNumber) (ids : List Nat)
    (polls slots : Nat) : (((s.reportRegion es).setOutstanding frame ids).setMapFigures polls slots).ledgerSound := by
  have reported : (s.reportRegion es).ledgerSound ∧ (s.reportRegion es).si.mode = .run := by
    simp only [State.reportRegion]
    split
    · exact ⟨h, hm⟩
    · exact ⟨(h.notify _ _ _).congr rfl rfl rfl rfl rfl rfl rfl, (State.notify_mode ..).trans hm⟩
  obtain ⟨law, run⟩ := reported
  have placed : ((s.reportRegion es).setOutstanding frame ids).Account True True :=
    (law.run run).updateAll (f := fun id r => if id ∈ ids then { r with outstanding := some frame } else r) fun id r _ => by
      split
      · exact .of_eq rfl rfl rfl rfl rfl
      · exact .refl _ r
  exact (law.of_run run ((s.reportRegion es).engineOnly_updateAll _) placed).congr rfl rfl rfl rfl rfl rfl rfl

/-! ## Expiries (log 4) -/

/-- A visit at which a countdown may end, in RUN alone. -/
theorem visit (h : s.ledgerSound) {id : Nat} {ends : Record → Bool} {t : Record → State}
    (ht : ∀ r, s.EngineOnly (t r) ∧ (s.Account True True → (t r).Account True True)) :
    (s.withRecord id fun r => s.ifEnds (ends r) (t r)).ledgerSound := by
  rcases hr : s.record? id with _ | r
  · rwa [State.withRecord_vacant hr]
  · rw [State.withRecord_of_record? hr, State.ifEnds]
    split
    · next hm => exact h.of_run hm.1 (ht r).1 ((ht r).2 (h.run hm.1))
    · exact h

theorem expireStorm (h : s.ledgerSound) : s.expireStorm.ledgerSound := by
  simp only [State.expireStorm, State.ifEnds, State.countStorm]
  split_ifs
  · split
    · exact h
    · split
      · exact notify (h.congr (t := s.setStorm none) rfl rfl rfl rfl rfl rfl rfl) _ _ _
      · exact h.congr rfl rfl rfl rfl rfl rfl rfl
  · exact h

theorem expireLevelHold (h : s.ledgerSound) : s.expireLevelHold.ledgerSound := by
  simp only [State.expireLevelHold, State.ifEnds]
  split
  · exact h.congr rfl rfl rfl rfl rfl rfl rfl
  · exact h

/-! ## Commands in flight -/

theorem nextEntry (h : s.ledgerSound) : s.nextEntry.ledgerSound := by
  unfold State.nextEntry
  split
  · next tag es k hf =>
    have account := h.account (State.flightPlain.not_suspended (.inr ⟨_, _, _, hf⟩))
    split
    · exact h
    · next e _ =>
      split
      · exact complete account _ _ _
      · next he =>
        have mode : (s.applyEntry e).si.mode = s.si.mode := by
          rcases hr : s.record? e.id.toNat with _ | r
          · rw [State.applyEntry_of_vacant hr]
          · rw [State.applyEntry_of_record hr]
        have applied : (s.applyEntry e).Account ((s.applyEntry e).si.mode ≠ .config) ((s.applyEntry e).si.mode ≠ .config) := by
          rw [mode]
          exact account.applyEntry he
        dsimp only
        split
        · exact complete applied _ _ _
        · exact of_account (applied.congr rfl rfl rfl rfl rfl) (State.flightPlain.sound (.inr ⟨_, _, _, rfl⟩))
  · exact h

theorem reclampAll (h : s.ledgerSound) : s.reclampAll.ledgerSound := by
  unfold State.reclampAll
  split
  · next tag table k hf =>
    have config : s.si.mode = .config := (State.inFlightSound_loadProfiles hf).1 h.flight
    have account := h.account (State.FieldsLaw.not_suspended fun _ _ hk => by rw [hf] at hk; cases hk)
    exact complete ((account.installProfiles table k).weaken (fun hm => hm config) fun hm => hm) _ _ _
  · exact h

/-- A RUN entry makes the costs current at stage 2 and the sum fit at stage 4, so that RUN begins within B_eff (R12, R126). -/
theorem nextEntryStage (h : s.ledgerSound) (last : Nat) : (State.nextEntryStage last s).ledgerSound := by
  unfold State.nextEntryStage
  split
  · next tag k hf =>
    obtain ⟨config, costs, budget⟩ := (State.inFlightSound_runEntry hf).1 h.flight
    have account := h.account (State.FieldsLaw.not_suspended fun _ _ hk => by rw [hf] at hk; cases hk)
    have entry : s.Account (2 ≤ k) (4 ≤ k) := { account with costs := costs, budget := budget }
    split
    · exact h
    · split
      · next hk =>
        have strict : s.Account True True := entry.weaken (fun _ => by omega) fun _ => hk
        exact of_strict (strict.congr rfl rfl rfl rfl rfl) (.inl rfl)
      · next hk =>
        have reached := entry.entryStage (Nat.not_le.1 hk)
        have mode := (s.engineOnly_entryStage (k + 1)).mode.trans config
        have noted : (s.entryReached tag (k + 1)).Account (2 ≤ k + 1) (4 ≤ k + 1) := reached.congr rfl rfl rfl rfl rfl
        refine of_config (t := s.entryReached tag (k + 1)) (noted.weaken False.elim False.elim) mode ?_
        exact (State.inFlightSound_runEntry rfl).2 ⟨mode, noted.costs, noted.budget⟩
  · exact h

/-! ## SECTOR_RESET (R13, R172) -/

/-- A step of the reset is noted, which is not step 2. -/
theorem resetReached (a : t.Account False False) (config : t.si.mode = .config) (tag : Byte) {k : Nat} (hk : 1 ≤ k)
    (other : k ≠ 2) : (t.setInFlight (some (.sectorReset tag k))).ledgerSound :=
  of_config (a.congr rfl rfl rfl rfl rfl) config
    ((State.inFlightSound_sectorReset rfl).2 ⟨hk, config, fun hc => absurd hc other⟩)

/-- SI's step brings the part to CONFIG, and no record's account is touched (R13). -/
theorem resetSi (a : s.Account False False) (tag : Byte) : (s.resetSi.setInFlight (some (.sectorReset tag 1))).ledgerSound := by
  have cleared : (s.updateAll fun _ r =>
      { r with outstanding := if s.si.mode = .run then none else r.outstanding }).Account False False :=
    a.updateAll fun _ _ _ => .of_eq rfl rfl rfl rfl rfl
  refine resetReached (cleared.congr ?_ ?_ ?_ ?_ ?_) ?_ tag (Nat.le_refl 1) (by decide) <;> rw [State.resetSi_eq] <;> rfl

/-- After TT's step no record is committed, waits or bears a cost, and the account waits for AC's step (R35, R36, log 12). -/
theorem resetRecords (h : s.ledgerSound) {tag : Byte} (hf : s.mu.inFlight = some (.sectorReset tag 1)) :
    (s.resetRecords.setInFlight (some (.sectorReset tag 2))).ledgerSound := by
  obtain ⟨-, config, -⟩ := (State.inFlightSound_sectorReset hf).1 h.flight
  have account := h.account (State.reset_not_suspended hf (by decide))
  have idle (e : Nat × Record) (he : e ∈ s.resetRecords.tt.records) :
      e.2.state.committed = false ∧ e.2.state.waiting = false ∧ e.2.cost = 0 := by
    obtain ⟨e', he', rfl⟩ := List.mem_map.1 he
    dsimp only
    split
    · next held =>
      have notCommitted : e'.2.state.committed = false := by rw [held]; rfl
      have notWaiting : e'.2.state.waiting = false := by rw [held]; rfl
      exact ⟨notCommitted, notWaiting, account.sums.2 e' he' notCommitted⟩
    · exact ⟨rfl, rfl, rfl⟩
  have records : s.resetRecords.recordsSound := (State.recordsSound_congr (s.ids_updateAll _)).2 h.records
  have flight : (s.resetRecords.setInFlight (some (.sectorReset tag 2))).inFlightSound :=
    (State.inFlightSound_sectorReset rfl).2 ⟨by decide, config, fun _ => idle⟩
  exact ⟨records, fun active => Bool.noConfusion active, fun running => absurd config running, flight⟩

/-- AC's step finds nothing committed and nothing that waits: a sum of 0 and an empty list are the account again (R140). -/
theorem resetAdmission (h : s.ledgerSound) {tag : Byte} (hf : s.mu.inFlight = some (.sectorReset tag 2)) :
    (s.resetAdmission.setInFlight (some (.sectorReset tag 3))).ledgerSound := by
  obtain ⟨-, config, idle⟩ := (State.inFlightSound_sectorReset hf).1 h.flight
  have idle := idle rfl
  have total : committedTotal s.tt.records = 0 :=
    committedTotal_of_no_victim fun e he => by simp only [sheddable, (idle e he).1, Bool.false_and]
  have account : s.resetAdmission.Account False False := by
    rw [State.resetAdmission_eq]
    refine ⟨h.records, ⟨total.symm, fun e he _ => (idle e he).2.2⟩,
      ⟨.nil, fun _ hm => absurd hm List.not_mem_nil, fun e he hw => ?_⟩,
      False.elim, False.elim⟩
    exact absurd ((idle e he).2.1.symm.trans hw) Bool.false_ne_true
  exact resetReached account (by rw [State.resetAdmission_eq]; exact config) tag (by decide) (by decide)

theorem nextResetStep (h : s.ledgerSound) : s.nextResetStep.ledgerSound := by
  unfold State.nextResetStep
  split
  · next tag k hf =>
    obtain ⟨begun, config, -⟩ := (State.inFlightSound_sectorReset hf).1 h.flight
    have account (hk : k ≠ 2) := h.account (State.reset_not_suspended hf hk)
    have config' (hk : k ≠ 2) : s.Account False False := (account hk).weaken False.elim False.elim
    split
    · exact complete (account (by omega)) _ _ _
    · next hk =>
      obtain rfl | rfl | rfl | rfl | rfl : k = 1 ∨ k = 2 ∨ k = 3 ∨ k = 4 ∨ k = 5 := by omega
      · exact h.resetRecords hf
      · exact h.resetAdmission hf
      · exact resetReached (t := s.setMapFigures 0 0) ((config' (by decide)).congr rfl rfl rfl rfl rfl) config tag
          (by decide) (by decide)
      · exact resetReached (t := (s.setUnlisted []).setOverrun false) ((config' (by decide)).congr rfl rfl rfl rfl rfl) config tag
          (by decide) (by decide)
      · exact resetReached (t := s.resetNotices) ((config' (by decide)).congr rfl rfl rfl rfl rfl) config tag
          (by decide) (by decide)
  · exact h

/-- A command that is ended early leaves the account as it was, but for the profiles of an aborted table (R49, R167, R169). -/
theorem abortInFlight (a : s.Account False False) : s.abortInFlight.Account False False := by
  unfold State.abortInFlight
  split
  · exact a.congr rfl rfl rfl rfl rfl
  · next tag table k _ => exact (a.installProfiles table k).congr rfl rfl rfl rfl rfl
  · exact a.congr rfl rfl rfl rfl rfl
  · exact a

theorem sectorResetCommand (h : s.ledgerSound) (tag : Byte) (through : Nat) :
    (s.sectorResetCommand tag through).1.ledgerSound := by
  unfold State.sectorResetCommand
  split
  · exact h
  · next hn =>
    obtain ⟨m, hm⟩ : ∃ m, max 1 through = m + 1 := ⟨max 1 through - 1, by omega⟩
    have account := (h.account (State.FieldsLaw.not_suspended fun tag k hk => hn tag k hk)).weaken False.elim False.elim
    have aborted : (s.abortInFlight.setInFlight (some (.sectorReset tag 0))).Account False False :=
      (abortInFlight account).congr rfl rfl rfl rfl rfl
    dsimp only
    rw [hm, repeatOp, State.nextResetStep_of_lt (tag := tag) rfl (by decide)]
    exact repeatOp_kept (fun _ hu => nextResetStep hu) m (resetSi aborted tag)

/-! ## Commands -/

theorem onRecord (h : s.ledgerSound) {id : Byte} {f : Nat → Record → State × Reply}
    (hf : ∀ r, s.record? id.toNat = some r → (f id.toNat r).1.ledgerSound) : (s.onRecord id f).1.ledgerSound := by
  simp only [State.onRecord]
  split
  · exact h
  · split
    · exact h
    · next r hr => exact hf r hr

theorem setModeCommand (h : s.ledgerSound) (idle : s.mu.inFlight = none) (tag requested : Byte) :
    (s.setModeCommand tag requested).1.ledgerSound := by
  have account := (h.account (State.flightPlain.not_suspended (.inl idle))).weaken (current' := False) (within' := False)
    False.elim False.elim
  unfold State.setModeCommand
  split
  · exact h
  · next hm => exact h.leaveRun hm .config
  · exact of_config (account.congr rfl rfl rfl rfl rfl) rfl (State.flightPlain.sound (.inl idle))
  · next hm =>
    refine of_config (account.congr rfl rfl rfl rfl rfl) hm ((State.inFlightSound_runEntry rfl).2 ⟨hm, ?_, ?_⟩) <;> omega
  · exact h
  · exact h
  · exact h

section
variable (h : s.ledgerSound) (idle : s.mu.inFlight = none)
include h idle

/-- With no command in flight the account is judged by the mode alone. -/
theorem idleAccount : s.Account (s.si.mode ≠ .config) (s.si.mode ≠ .config) :=
  h.account (State.flightPlain.not_suspended (.inl idle))

theorem unloadCommand (id : Byte) : (s.unloadCommand id).1.ledgerSound := h.onRecord fun r hr => by
  split
  · exact h
  · refine of_same (.inl idle) ((h.idleAccount idle).removeRecord hr) ?_ ?_ <;> rw [State.removeRecord_eq]

theorem holdCommand (id : Byte) : (s.holdCommand id).1.ledgerSound := h.onRecord fun r hr => by
  have account := h.idleAccount idle
  have told {u : State} (hu : u.Account (s.si.mode ≠ .config) (s.si.mode ≠ .config)) (mode : u.si.mode = s.si.mode)
      (same : u.mu.inFlight = s.mu.inFlight) (values : List Int) : (u.notify .holdGranted (some id.toNat) values).ledgerSound :=
    of_same (.inl idle) (hu.notify _ _ _) ((State.notify_mode ..).trans mode) ((State.notify_inFlight ..).trans same)
  have reentry (hc : r.state.committed = false) : (s.holdReentry id.toNat r).ledgerSound := by
    rw [State.holdReentry_of_record h.records hr hc]
    exact told (account.leave hr (q := heldFromReentry r) rfl rfl rfl (account.sums.2 _ (State.record?_mem hr) hc)) rfl rfl _
  have service : (s.holdService id.toNat r).ledgerSound := by
    rw [State.holdService_of_record h.records hr]
    exact told (account.leave hr (q := heldFromService r) rfl rfl rfl rfl) rfl rfl _
  cases hst : r.state with
  | held => exact h
  | ranging =>
    exact of_same (.inl idle) (account.update (f := fun r => { r with holdReq := true })
      fun _ _ => .of_eq rfl rfl rfl rfl rfl) rfl rfl
  | lost => exact reentry (by rw [hst]; rfl)
  | polling => exact reentry (by rw [hst]; rfl)
  | admitWait => exact reentry (by rw [hst]; rfl)
  | confirming => exact service
  | inService => exact service
  | fading => exact service
  | shed => exact service

theorem releaseCommand (id : Byte) : (s.releaseCommand id).1.ledgerSound := h.onRecord fun r hr => by
  have account := h.idleAccount idle
  split
  · next hst =>
    exact of_same (.inl idle) (account.update (f := releasedRecord s.si.markerCount) (State.recordIs_of_record? hr
      (.of_state (state := .polling) (by rw [hst]; rfl) (by rw [hst]; rfl) rfl rfl rfl rfl rfl))) rfl rfl
  · split
    · exact of_same (.inl idle) (account.update (f := fun r => { r with holdReq := false })
        fun _ _ => .of_eq rfl rfl rfl rfl rfl) rfl rfl
    · exact h

omit idle in
theorem forceLossCommand (id : Byte) : (s.forceLossCommand id).1.ledgerSound := by
  simp only [State.forceLossCommand]
  split
  · exact h
  · next hm =>
    have run := not_not.1 hm
    refine h.onRecord fun r _ => ?_
    split
    · exact h
    · exact h.of_run run (s.engineOnly_lose _ _) ((h.run run).lose _ _)

omit idle in
theorem cancelReentryCommand (id : Byte) : (s.cancelReentryCommand id).1.ledgerSound := by
  simp only [State.cancelReentryCommand]
  split
  · exact h
  · next hm =>
    have run := not_not.1 hm
    exact h.onRecord fun r _ => h.of_run run (s.engineOnly_update _ _)
      ((h.run run).update (f := fun r => { r with cancelReq := true }) fun _ _ => .of_eq rfl rfl rfl rfl rfl)

theorem loadProfilesCommand (tag : Byte) (w : List ProfileWire) : (s.loadProfilesCommand tag w).1.ledgerSound := by
  simp only [State.loadProfilesCommand]
  split
  · exact h
  · next hm =>
    have config := not_not.1 hm
    split
    · exact h
    · exact of_config (((h.idleAccount idle).weaken False.elim False.elim).congr rfl rfl rfl rfl rfl) config
        ((State.inFlightSound_loadProfiles rfl).2 config)

end

/-! ### Commands that touch neither records nor accounts -/

theorem loadBudgetCommand (h : s.ledgerSound) (banks : List Half) : (s.loadBudgetCommand banks).1.ledgerSound := by
  simp only [State.loadBudgetCommand]
  split
  · exact h.congr rfl rfl rfl rfl rfl rfl rfl
  · exact h

theorem loadLevelTableCommand (h : s.ledgerSound) (ths : List Half) (levelHold : Byte) :
    (s.loadLevelTableCommand ths levelHold).1.ledgerSound := by
  simp only [State.loadLevelTableCommand]
  split_ifs
  · exact h
  · exact h.congr rfl rfl rfl rfl rfl rfl rfl
  · exact h

theorem loadFiltersCommand (h : s.ledgerSound) (a b r : FilterWire) : (s.loadFiltersCommand a b r).1.ledgerSound := by
  simp only [State.loadFiltersCommand]
  split
  · exact h
  · split
    · exact h.congr rfl rfl rfl rfl rfl rfl rfl
    · exact h

/-- A new reserved region reaches B_eff at the next level computation alone (R114). -/
theorem loadSectorParametersCommand (h : s.ledgerSound) (values : List Half) :
    (s.loadSectorParametersCommand values).1.ledgerSound := by
  simp only [State.loadSectorParametersCommand]
  split
  · exact h
  · split
    · exact h
    · exact h.congr rfl rfl rfl rfl rfl rfl rfl

theorem stormCommand (h : s.ledgerSound) (level : Byte) : (s.stormCommand level).1.ledgerSound := by
  simp only [State.stormCommand]
  split <;> exact h.congr rfl rfl rfl rfl rfl rfl rfl

theorem unlistedReadCommand (h : s.ledgerSound) : s.unlistedReadCommand.1.ledgerSound := by
  simp only [State.unlistedReadCommand]
  split <;> exact h

theorem unlistedReleaseCommand (h : s.ledgerSound) : s.unlistedReleaseCommand.1.ledgerSound := by
  simp only [State.unlistedReleaseCommand]
  split
  · exact h
  · exact h.congr rfl rfl rfl rfl rfl rfl rfl

theorem readSectorCommand (h : s.ledgerSound) (acknowledge : Byte) : (s.readSectorCommand acknowledge).1.ledgerSound := by
  simp only [State.readSectorCommand]
  split
  · exact h
  · exact h.congr rfl rfl rfl rfl rfl rfl rfl
  · exact h

theorem setNoticeMaskCommand (h : s.ledgerSound) (enables : List Byte) : (s.setNoticeMaskCommand enables).1.ledgerSound := by
  simp only [State.setNoticeMaskCommand]
  split
  · exact h.congr rfl rfl rfl rfl rfl rfl rfl
  · exact h

/-! ### The command of a cell -/

/-- A command with none in flight before it, or a sector reset. -/
theorem perform (h : s.ledgerSound) (tag : Byte) {c : Command}
    (hf : s.mu.inFlight = none ∨ ∃ through, c = .sectorReset through) : (s.perform tag c).1.ledgerSound := by
  have idle (hc : ∀ through, c ≠ .sectorReset through) : s.mu.inFlight = none :=
    hf.resolve_right fun ⟨through, ht⟩ => hc through ht
  cases c with
  | setMode v => exact h.setModeCommand (idle (by simp)) tag v
  | loadTerminals es =>
    exact of_account ((h.idleAccount (idle (by simp))).congr rfl rfl rfl rfl rfl) (State.flightPlain.sound (.inr ⟨_, _, _, rfl⟩))
  | unload id => exact h.unloadCommand (idle (by simp)) id
  | readTerminal id => exact h.onRecord fun _ _ => h
  | hold id => exact h.holdCommand (idle (by simp)) id
  | release id => exact h.releaseCommand (idle (by simp)) id
  | forceLoss id => exact h.forceLossCommand id
  | cancelReentry id => exact h.cancelReentryCommand id
  | loadProfiles t => exact h.loadProfilesCommand (idle (by simp)) tag t
  | loadBudget b => exact h.loadBudgetCommand b
  | loadLevelTable ths hold => exact h.loadLevelTableCommand ths hold
  | loadFilters a b r => exact h.loadFiltersCommand a b r
  | loadSectorParameters v => exact h.loadSectorParametersCommand v
  | storm l => exact h.stormCommand l
  | unlistedRead => exact h.unlistedReadCommand
  | unlistedRelease => exact h.unlistedReleaseCommand
  | unlistedClearOverrun => exact h.congr rfl rfl rfl rfl rfl rfl rfl
  | readSector a => exact h.readSectorCommand a
  | setNoticeMask m => exact h.setNoticeMaskCommand m
  | sectorReset through => exact h.sectorResetCommand tag through

theorem carryOut (h : s.ledgerSound) (tag : Byte) {c : Command}
    (hf : s.mu.inFlight = none ∨ ∃ through, c = .sectorReset through) : (s.carryOut tag c).ledgerSound := by
  have performed := h.perform tag hf
  simp only [State.carryOut]
  split
  · next hu =>
    rw [hu] at performed
    exact performed.reply _ _ _
  · next hu =>
    rw [hu] at performed
    exact performed

theorem takeCommand (h : s.ledgerSound) (tag : Byte) (c : Command) : (s.takeCommand tag c).ledgerSound := by
  simp only [State.takeCommand]
  split
  · exact h.reply _ _ _
  · next hb =>
    split
    · exact h.reply _ _ _
    · exact h.carryOut tag
        ((State.busyFor_eq_false (Bool.eq_false_iff.2 hb)).imp_right Command.eq_sectorReset_of_code)

theorem takeCell (h : s.ledgerSound) (payload : List Byte) : (s.takeCell payload).ledgerSound := by
  simp only [State.takeCell]
  split
  · split
    · exact h.reply _ _ _
    · next hb =>
      split
      · exact h.reply _ _ _
      · exact h.reply _ _ _
      · next c hc =>
        refine h.carryOut _ ((State.busyFor_eq_false (Bool.eq_false_iff.2 hb)).imp_right fun hcode => ?_)
        exact ⟨7, readCommand_sectorReset (hcode ▸ hc)⟩
  · exact h.congr rfl rfl rfl rfl rfl rfl rfl

/-! ## One step -/

theorem emission (h : s.ledgerSound) : s.settleEmission.ledgerSound := by
  rcases hd : s.paths.emissionDue with _ | e
  · rwa [State.settleEmission_of_none hd]
  · rw [State.settleEmission_of_some hd]
    exact h.congr rfl rfl rfl rfl rfl rfl rfl

theorem setHeader (h : s.ledgerSound) (x : HeaderState) : (s.setHeader x).ledgerSound := h.congr rfl rfl rfl rfl rfl rfl rfl

/-- What each part of a step makes of the law. -/
theorem keptByParts : State.KeptByParts State.ledgerSound where
  queue _ h := h.congr rfl rfl rfl rfl rfl rfl rfl
  race h := h.congr rfl rfl rfl rfl rfl rfl rfl
  ports _ _ _ h := h.congr rfl rfl rfl rfl rfl rfl rfl
  powerOn _ := congr State.reset_ledgerSound rfl rfl rfl rfl rfl rfl rfl
  resetFalls h := by
    rw [State.resetFalls_eq]
    exact h.congr rfl rfl rfl rfl rfl rfl rfl
  reserve _ _ h := h.congr rfl rfl rfl rfl rfl rfl rfl
  wait _ h := h.congr rfl rfl rfl rfl rfl rfl rfl
  discard _ h := h.congr rfl rfl rfl rfl rfl rfl rfl
  cell payload _ h := (h.setHeader .none).takeCell payload
  command tag c _ h := (h.setHeader .none).takeCommand tag c
  marker frame h := h.takeMarker frame
  malformed _ _ h := (h.notify _ _ _).congr rfl rfl rfl rfl rfl rfl rfl
  edited es frame ids polls slots hm h := h.editedMap hm es frame ids polls slots
  emitted id hm h := h.of_run hm (State.engineOnly_update _ _ _) ((h.run hm).update fun _ _ => .of_eq rfl rfl rfl rfl rfl)
  grantReport id o snr hm h := h.of_run hm (State.engineOnly_grantReport _ _ _ _) ((h.run hm).grantReport id o snr)
  pollReport select id frame m hm h :=
    h.of_run hm (State.engineOnly_pollReport _ _ _ _ _) ((h.run hm).pollReport select id frame m)
  contention b hm h := h.contention hm b
  endFrame select frame hm h := h.of_run hm (State.engineOnly_endFrame _ _ _) ((h.run hm).endFrame select frame)
  emission := emission
  sent _ h := h.congr rfl rfl rfl rfl rfl rfl rfl
  cleared _ h := h.congr rfl rfl rfl rfl rfl rfl rfl
  watchdog := watchdogExpires
  entryStage last h := h.nextEntryStage last
  entry := nextEntry
  reclamp := reclampAll
  holdOff _ h := h.visit fun _ => ⟨State.engineOnly_update _ _ _, fun a => a.update fun _ _ => sameAccount_holdOffVisit ..⟩
  probation _ h := h.visit fun _ => ⟨State.engineOnly_update _ _ _, fun a => a.update fun _ _ => sameAccount_probationVisit ..⟩
  confirmTimer id h := h.visit fun _ => ⟨State.engineOnly_confirmVisit _ id, fun a => a.confirmVisit id⟩
  storm := expireStorm
  levelHold := expireLevelHold
  resetStep := nextResetStep

end State.ledgerSound

/-- Settles O54: the account under each operation on records (`State.Account`), and the law with it under each part of a step. -/
theorem ledgerKeptByEveryStep : Obligations.LedgerKeptByEveryStep :=
  fun _ _ hs he => State.ledgerSound.keptByParts.step hs he

end Sys2Proof.Machine
end

section
/-! A control section in RUN (R145 to R147): which of the terminals with a pending message it takes, the bytes it is given, and
what the emission makes of their records. -/

namespace Sys2Proof.Machine

open Sys2Proof

/-! ## The terminals a section takes (R145) -/

/-- A section that is `length` bytes long takes the first `n` of a list of terminals, each for its `text`: as many as its length
field can carry. -/
structure SectionTakes (text : Nat → List Byte) (length : Nat) (ids : List Nat) (n : Nat) : Prop where
  listed : n ≤ ids.length
  fits : n = 0 ∨ length + ((ids.take n).flatMap text).length ≤ Config.maxItemLength
  full : n < ids.length → Config.maxItemLength < length + ((ids.take (n + 1)).flatMap text).length

section
variable {text : Nat → List Byte} {length id : Nat} {ids : List Nat}

theorem SectionTakes.nil : SectionTakes text length [] 0 := ⟨le_rfl, .inl rfl, fun h => absurd h (lt_irrefl 0)⟩

theorem SectionTakes.none_of_long (long : Config.maxItemLength < length + (text id).length) :
    SectionTakes text length (id :: ids) 0 :=
  ⟨Nat.zero_le _, .inl rfl, fun _ => by simpa using long⟩

theorem SectionTakes.cons {n : Nat} (short : length + (text id).length ≤ Config.maxItemLength)
    (rest : SectionTakes text (length + (text id).length) ids n) : SectionTakes text length (id :: ids) (n + 1) where
  listed := Nat.succ_le_succ rest.listed
  fits := .inr <| by
    rw [List.take_succ_cons, List.flatMap_cons, List.length_append, ← Nat.add_assoc]
    rcases rest.fits with rfl | fits
    · simpa using short
    · exact fits
  full more := by
    rw [List.take_succ_cons, List.flatMap_cons, List.length_append, ← Nat.add_assoc]
    exact rest.full (Nat.lt_of_succ_lt_succ more)

end

/-! ## Emission (R147) -/

/-- The state once the messages of some terminals have been emitted. -/
def State.emitted (s : State) (ids : List Nat) : State :=
  s.updateAll fun id r => if id ∈ ids then emittedRecord s.params.confirmTimeout r else r

theorem State.emitted_nil (s : State) : s.emitted [] = s := by
  simp [State.emitted, State.updateAll, State.setRecords]

/-- Terminals that differ are emitted one after another. -/
theorem State.emitted_update {s : State} {id : Nat} {ids : List Nat} (new : id ∉ ids) :
    (s.update id (emittedRecord s.params.confirmTimeout)).emitted ids = s.emitted (id :: ids) := by
  have records : (assocUpdate s.tt.records id (emittedRecord s.params.confirmTimeout)).map
      (fun e => (e.1, if e.1 ∈ ids then emittedRecord s.params.confirmTimeout e.2 else e.2)) =
      s.tt.records.map fun e => (e.1, if e.1 ∈ id :: ids then emittedRecord s.params.confirmTimeout e.2 else e.2) := by
    rw [assocUpdate, List.map_map]
    refine List.map_congr_left fun e _ => ?_
    by_cases own : e.1 = id <;> simp [own, new]
  exact congrArg s.setRecords records

/-- The bytes of a terminal's pending message. -/
def State.pendingBytes? (s : State) (id : Nat) : Option (List Byte) :=
  (s.record? id).bind fun r => r.message.map (messageBytes id r)

theorem State.pendingBytes?_update {s : State} {id k : Nat} (other : k ≠ id) (f : Record → Record) :
    (s.update id f).pendingBytes? k = s.pendingBytes? k := by
  simp only [State.pendingBytes?, State.record?_update, if_neg other]

theorem State.emitMessages_cons {s : State} {id : Nat} {bytes : List Byte} (pending : s.pendingBytes? id = some bytes)
    (ids : List Nat) (limit length : Nat) : State.emitMessages (id :: ids) (limit + 1) length s =
      if Config.maxItemLength < length + bytes.length then (s, []) else
        let rest := State.emitMessages ids limit (length + bytes.length)
          (s.update id (emittedRecord s.params.confirmTimeout))
        (rest.1, bytes ++ rest.2) := by
  rw [State.pendingBytes?] at pending
  rw [State.emitMessages, pending]

/-- Of distinct terminals with a message each, the section takes the first, within the limit and its length field. -/
theorem State.emitMessages_eq {s : State} {text : Nat → List Byte} {ids : List Nat} (distinct : ids.Nodup)
    (pending : ∀ id ∈ ids, s.pendingBytes? id = some (text id)) (limit length : Nat) :
    ∃ n, SectionTakes text length (ids.take limit) n ∧ State.emitMessages ids limit length s =
      (s.emitted ((ids.take limit).take n), ((ids.take limit).take n).flatMap text) := by
  induction ids generalizing s limit length with
  | nil => exact ⟨0, by rw [List.take_nil]; exact .nil, by simp [State.emitMessages, State.emitted_nil]⟩
  | cons id ids ih =>
    obtain ⟨new, distinct⟩ := List.nodup_cons.1 distinct
    obtain ⟨head, others⟩ := List.forall_mem_cons.1 pending
    cases limit with
    | zero => exact ⟨0, .nil, by simp [State.emitMessages, State.emitted_nil]⟩
    | succ limit =>
      rw [State.emitMessages_cons head, List.take_succ_cons]
      split
      · next long => exact ⟨0, .none_of_long long, by simp [State.emitted_nil]⟩
      · next short =>
        have later : ∀ k ∈ ids, (s.update id (emittedRecord s.params.confirmTimeout)).pendingBytes? k = some (text k) :=
          fun k hk => (State.pendingBytes?_update (ne_of_mem_of_not_mem hk new) _).trans (others k hk)
        obtain ⟨n, takes, emission⟩ := ih distinct later limit (length + (text id).length)
        have notTaken : id ∉ (ids.take limit).take n := fun taken =>
          new (List.mem_of_mem_take (List.mem_of_mem_take taken))
        refine ⟨n + 1, .cons (Nat.not_lt.1 short) takes, ?_⟩
        rw [emission, State.emitted_update notTaken, List.take_succ_cons, List.flatMap_cons]

/-! ## The section -/

theorem State.mem_messageOrder {s : State} (hs : s.recordsSound) (id : Nat) :
    id ∈ s.messageOrder ↔ ∃ r m, s.record? id = some r ∧ r.message = some m := by
  simp only [State.messageOrder, State.mem_inPriority hs, Option.isSome_iff_exists, exists_and_left]

/-- A control section in RUN on a ready port. -/
theorem exec_controlSection_of_run {s : State} (hs : s.dsReady) (hm : s.si.mode = .run) (offered : Byte)
    (messages : List Byte) : exec (.controlSection offered messages) s = .next (s.fillSection offered messages) := by
  rw [exec_of_dsReady rfl hs, State.routeDs, if_pos hm, State.cutHeader_of_none hs.2.1]

/-- The section as it is sent: the messages stand behind those it came with, and its header counts them. -/
theorem control_bytes_append (offered : Byte) (messages added : List Byte) :
    (DsItem.control offered (messages ++ added)).bytes =
      0x03 :: (halfBytes (BitVec.ofNat 16 (4 + messages.length + added.length)) ++ offered :: (messages ++ added)) := by
  have counted : 3 + (offered :: (messages ++ added)).length = 4 + messages.length + added.length := by
    rw [List.length_cons, List.length_append]; omega
  rw [DsItem.bytes, itemBytes, counted]

theorem control_bytes_length (offered : Byte) (messages : List Byte) :
    (DsItem.control offered messages).bytes.length = 4 + messages.length := by
  rw [DsItem.bytes, itemBytes_length, List.length_cons]; omega

/-- Settles O46: the terminals taken and their records by `State.emitMessages_eq`, each message by its layout. -/
theorem sectionFilledInPriority : Obligations.SectionFilledInPriority := by
  intro s offered messages hs hm sound ids half named layout text
  refine ⟨State.mem_messageOrder sound, State.inPriority_ordered sound _, ?_⟩
  have laidOut (id : Nat) (r : Record) (m : Message) : messageBytes id r m = layout id r m := by
    cases m <;> rfl
  -- The bytes of one terminal are those of a section that takes it alone.
  have pending : ∀ id ∈ s.messageOrder, s.pendingBytes? id = some (text [id]) := fun id hid => by
    obtain ⟨r, m, hr, hmsg⟩ := (State.mem_messageOrder sound id).1 hid
    simp [State.pendingBytes?, text, hr, hmsg, laidOut]
  have distinct : s.messageOrder.Nodup := State.inPriority_nodup sound _
  obtain ⟨n, takes, emission⟩ := State.emitMessages_eq distinct pending (s.messageLimit offered)
    (DsItem.control offered messages).bytes.length
  have texts (l : List Nat) : l.flatMap (fun id => text [id]) = text l := by
    simp [text]
  obtain ⟨listed, fits, full⟩ := takes
  simp only [texts, control_bytes_length] at fits full
  refine ⟨n, listed, fits, full, ?_⟩
  rw [exec_controlSection_of_run hs hm, State.fillSection]
  dsimp only
  rw [emission, texts, control_bytes_append]
  rfl

end Sys2Proof.Machine
end

section
/-! The commands of unlisted stations (R158 to R161): LOAD_FILTERS, UNLISTED_READ, UNLISTED_RELEASE and UNLISTED_CLEAR_OVERRUN at
their arrival. -/

namespace Sys2Proof.Machine

open Sys2Proof

/-! ## Filters as they are loaded (R161) -/

theorem filterOfWire_of_le {w : FilterWire} (h : w.enabled.toNat ≤ 1) :
    filterOfWire w = some { code := w.code, mask := w.mask, enabled := w.enabled == 1 } := by
  obtain clear | set : w.enabled = 0 ∨ w.enabled = 1 := by bv_omega
  · simp [filterOfWire, clear]
  · simp [filterOfWire, set]

theorem filterOfWire_eq_none {w : FilterWire} (h : ¬ w.enabled.toNat ≤ 1) : filterOfWire w = none := by
  obtain ⟨n, hn⟩ : ∃ n, w.enabled.toNat = n + 2 := ⟨w.enabled.toNat - 2, by omega⟩
  simp only [filterOfWire, hn]

section
variable {s : State} (hm : s.si.mode = .config) {a b r : FilterWire}
include hm

theorem State.loadFiltersCommand_of_some {a' b' r' : Filter} (ha : filterOfWire a = some a') (hb : filterOfWire b = some b')
    (hr : filterOfWire r = some r') : s.loadFiltersCommand a b r =
      ({ s with uq := { s.uq with acceptA := a', acceptB := b', reject := r' } }, Reply.ok) := by
  rw [State.loadFiltersCommand, if_neg (not_not.2 hm), ha, hb, hr]

/-- One filter whose flag is neither 0 nor 1 refuses all three. -/
theorem State.loadFiltersCommand_of_none (h : filterOfWire a = none ∨ filterOfWire b = none ∨ filterOfWire r = none) :
    s.loadFiltersCommand a b r = (s, { status := .badValue }) := by
  rw [State.loadFiltersCommand, if_neg (not_not.2 hm)]
  split
  · next ha hb hr => simp [ha, hb, hr] at h
  · rfl

end

/-- Settles O24: the mode, then the flags of the three filters. -/
theorem filtersLoad : Obligations.FiltersLoad := by
  intro s tag a b r hs loaded ok
  have answers {u : State} {reply : Reply} (h : (s.cellRemoved 0).loadFiltersCommand a b r = (u.cellRemoved 0, reply)) :
      exec (.loadFilters tag a b r) s = .next (u.answered tag 0x0C reply) :=
    exec_answered (c := .loadFilters a b r) rfl rfl hs (congrArg atArrival h)
  refine ⟨fun hm => answers (if_pos hm), fun hm => ?_⟩
  have inConfig : (s.cellRemoved 0).si.mode = .config := hm
  refine ⟨fun fails => ?_, fun ⟨ha, hb, hr⟩ => ?_⟩
  · have someFails : ¬ a.enabled.toNat ≤ 1 ∨ ¬ b.enabled.toNat ≤ 1 ∨ ¬ r.enabled.toNat ≤ 1 := by
      simpa only [ok, not_and_or] using fails
    exact answers (State.loadFiltersCommand_of_none inConfig
      (someFails.imp filterOfWire_eq_none (Or.imp filterOfWire_eq_none filterOfWire_eq_none)))
  · exact answers (State.loadFiltersCommand_of_some inConfig (filterOfWire_of_le ha) (filterOfWire_of_le hb)
      (filterOfWire_of_le hr))

/-! ## The Unlisted Queue's head (R158, R159) -/

section
variable {s : State}

theorem State.unlistedReadCommand_of_nil (h : s.uq.queue = []) : s.unlistedReadCommand = (s, { status := .empty }) := by
  simp only [State.unlistedReadCommand, h]

theorem State.unlistedReadCommand_of_cons {e : UnlistedEntry} {rest : List UnlistedEntry} (h : s.uq.queue = e :: rest) :
    s.unlistedReadCommand = (s, { status := .ok, data := unlistedResult e (rest.length + 1) s.uq.overrun }) := by
  simp only [State.unlistedReadCommand, h, List.length_cons]

theorem State.unlistedReleaseCommand_of_nil (h : s.uq.queue = []) :
    s.unlistedReleaseCommand = (s, { status := .empty }) := by
  simp only [State.unlistedReleaseCommand, h]

theorem State.unlistedReleaseCommand_of_cons {e : UnlistedEntry} {rest : List UnlistedEntry} (h : s.uq.queue = e :: rest) :
    s.unlistedReleaseCommand =
      (s.setUnlisted rest, { status := .ok, data := addressBytes e.addr ++ [byteOf rest.length] }) := by
  simp only [State.unlistedReleaseCommand, h]

end

/-- Settles O26: the empty queue and the queue with a head, for each command. -/
theorem unlistedReadAndRelease : Obligations.UnlistedReadAndRelease := by
  intro s tag hs
  have reads {r : Reply} (h : (s.cellRemoved 0).unlistedReadCommand = (s.cellRemoved 0, r)) :
      exec (.unlistedRead tag) s = .next (s.answered tag 0x0F r) :=
    exec_answered (c := .unlistedRead) rfl rfl hs (congrArg atArrival h)
  have releases {u : State} {r : Reply} (h : (s.cellRemoved 0).unlistedReleaseCommand = (u.cellRemoved 0, r)) :
      exec (.unlistedRelease tag) s = .next (u.answered tag 0x10 r) :=
    exec_answered (c := .unlistedRelease) rfl rfl hs (congrArg atArrival h)
  refine ⟨fun hq => ⟨reads (State.unlistedReadCommand_of_nil hq), releases (State.unlistedReleaseCommand_of_nil hq)⟩,
    fun e rest hq => ⟨?_, releases (State.unlistedReleaseCommand_of_cons hq)⟩⟩
  simp only [List.append_assoc]
  exact reads (State.unlistedReadCommand_of_cons hq)

/-! ## The overrun flag (R156, R160) -/

/-- A new station turned away while the flag is clear sets it and tells of it (R156). -/
theorem State.enqueueUnlisted_of_full {s : State} {addr : Address} (new : ∀ e ∈ s.uq.queue, e.addr ≠ addr)
    (full : s.uq.queue.length = Config.unlistedPlaces) (clear : s.uq.overrun = false) (frame : FrameNumber) (m : Measurement) :
    s.enqueueUnlisted addr frame m = (s.setOverrun true).notify .unlistedOverrun none [addr.toNat] := by
  rw [State.enqueueUnlisted_of_new new, if_neg (Nat.not_lt.2 full.ge), if_neg (by simp [clear])]

/-- Settles O27: the command at its arrival, and a report that meets a full queue with the flag clear. -/
theorem clearOverrunAsksAgain : Obligations.ClearOverrunAsksAgain := by
  refine ⟨fun s tag hs => ?_, fun s b addr hs good named unlisted accepted new full clear => ?_⟩
  · exact exec_answered (c := .unlistedClearOverrun) (t := s.setOverrun false) rfl rfl hs rfl
  · rw [exec_contentionReportUnlisted hs fun _ => by simp [named], State.contention_of_unlisted good named unlisted,
      State.screen, if_pos accepted, State.enqueueUnlisted_of_full new full clear]
    rfl

end Sys2Proof.Machine
end

section
/-! Commands read back from the bytes of their cells (12.4), and the lengths a cell's reading asks for (R163 checks 3 and 4). -/

namespace Sys2Proof.Machine

open Sys2Proof

/-! ## Lists of entries -/

/-- Entries that are read one by one from their bytes are read back as a list. -/
theorem readBack_flatMap {α : Type} {read : List Byte → Option (List α)} {bytes : α → List Byte} (nil : read [] = some [])
    (cons : ∀ a rest, read (bytes a ++ rest) = (read rest).map (a :: ·)) (l : List α) : read (l.flatMap bytes) = some l := by
  induction l with
  | nil => exact nil
  | cons a l ih => rw [List.flatMap_cons, cons, ih, Option.map_some]

theorem readHalves_flatMap (v : List Half) : readHalves (v.flatMap halfBytes) = some v :=
  readBack_flatMap (bytes := halfBytes) rfl (fun w rest => by
    simp only [halfBytes, List.cons_append, List.nil_append, readHalves, half_halfBytes]) v

theorem readEntries_flatMap (es : List ProvEntry) : readEntries (es.flatMap entryBytes) = some es :=
  readBack_flatMap (bytes := entryBytes) rfl (fun e rest => by
    simp only [entryBytes, addressBytes, halfBytes, List.cons_append, List.nil_append, readEntries, half_halfBytes,
      address_addressBytes]) es

theorem readProfiles_flatMap (t : List ProfileWire) : readProfiles (t.flatMap profileBytes) = some t :=
  readBack_flatMap (bytes := profileBytes) rfl (fun p rest => by
    simp only [profileBytes, halfBytes, List.cons_append, List.nil_append, readProfiles, half_halfBytes]) t

theorem readFilter_append (f : FilterWire) (rest : List Byte) : readFilter (filterBytes f ++ rest) = some (f, rest) := by
  simp only [filterBytes, addressBytes, List.cons_append, List.nil_append, readFilter, address_addressBytes]

/-! ## Commands with lists -/

theorem readLoadTerminals_params {es : List ProvEntry} (h : (Command.loadTerminals es).lengthOk = true) :
    readLoadTerminals (Command.loadTerminals es).params = .command (.loadTerminals es) := by
  simp only [Command.lengthOk, Bool.and_eq_true, decide_eq_true_eq] at h
  have count : (BitVec.ofNat 8 es.length).toNat = es.length := by rw [BitVec.toNat_ofNat, Nat.mod_eq_of_lt (by omega)]
  simp only [Command.params, readLoadTerminals, readEntries_flatMap, count]
  exact if_pos ⟨h.1, h.2, trivial⟩

theorem flatMap_halfBytes_length (v : List Half) : (v.flatMap halfBytes).length = 2 * v.length :=
  readHalves_length (readHalves_flatMap v)

theorem readLoadLevelTable_params {ths : List Half} {levelHold : Byte}
    (h : (Command.loadLevelTable ths levelHold).lengthOk = true) :
    readLoadLevelTable (Command.loadLevelTable ths levelHold).params = .command (.loadLevelTable ths levelHold) := by
  have bytes : (ths.flatMap halfBytes).length = 14 := by rw [flatMap_halfBytes_length, beq_iff_eq.1 h]
  simp only [Command.params, readLoadLevelTable, List.take_left' bytes, List.drop_left' bytes, readHalves_flatMap]

theorem readLoadFilters_params (a b r : FilterWire) :
    readLoadFilters (Command.loadFilters a b r).params = .command (.loadFilters a b r) := by
  have last : readFilter (filterBytes r) = some (r, []) := by simpa using readFilter_append r []
  simp only [Command.params, readLoadFilters, readFilter_append, last]

/-- Settles O59, command by command. -/
theorem commandsReadBack : Obligations.CommandsReadBack := by
  intro c hl hreset
  cases c with
  | loadTerminals es => exact readLoadTerminals_params hl
  | loadLevelTable ths levelHold => exact readLoadLevelTable_params hl
  | loadFilters a b r => exact readLoadFilters_params a b r
  | loadProfiles t =>
    have length : t.length = 8 := beq_iff_eq.1 hl
    simp [readCommand, Command.code, Command.params, readProfiles_flatMap, length]
  | loadBudget b =>
    have length : b.length = 8 := beq_iff_eq.1 hl
    simp [readCommand, Command.code, Command.params, readHalves_flatMap, length]
  | loadSectorParameters v =>
    have length : v.length = 27 := beq_iff_eq.1 hl
    simp [readCommand, Command.code, Command.params, readHalves_flatMap, length]
  | setNoticeMask m => exact if_pos (beq_iff_eq.1 hl)
  | sectorReset n => rw [hreset n rfl]; rfl
  | setMode | unload | readTerminal | hold | release | forceLoss | cancelReentry | storm | unlistedRead | unlistedRelease
  | unlistedClearOverrun | readSector => rfl

/-! ## Lengths (R163 check 4) -/

theorem readEntries_length {l : List Byte} {es : List ProvEntry} (h : readEntries l = some es) :
    l.length = 12 * es.length := by
  induction l using readEntries.induct generalizing es with
  | case1 => cases h; rfl
  | case2 id a b c d e f cls l1 l2 ceiling flags rest ih =>
    simp only [readEntries, Option.map_eq_some_iff] at h
    obtain ⟨tail, htail, rfl⟩ := h
    simp only [List.length_cons, ih htail]
    omega
  | case3 l h₁ h₂ => rw [readEntries.eq_3 l h₁ h₂] at h; cases h

theorem readProfiles_length {l : List Byte} {t : List ProfileWire} (h : readProfiles l = some t) :
    l.length = 5 * t.length := by
  induction l using readProfiles.induct generalizing t with
  | case1 => cases h; rfl
  | case2 flags t1 t2 capacity overhead rest ih =>
    simp only [readProfiles, Option.map_eq_some_iff] at h
    obtain ⟨tail, htail, rfl⟩ := h
    simp only [List.length_cons, ih htail]
    omega
  | case3 l h₁ h₂ => rw [readProfiles.eq_3 l h₁ h₂] at h; cases h

theorem readFilter_length {l rest : List Byte} {f : FilterWire} (h : readFilter l = some (f, rest)) :
    l.length = 13 + rest.length := by
  unfold readFilter at h
  split at h
  · cases h
    simp only [List.length_cons]
    omega
  · cases h

/-! ## What a cell is read as (R163 checks 3 and 4) -/

/-- A reading that is a command only where the length fits, and that knows the code. -/
def ReadWithin (fits : Bool) : CommandRead → Prop
  | .unknown => False
  | .badLength => True
  | .command _ => fits = true

theorem oneByte_within (params : List Byte) (f : Byte → Command) : ReadWithin (params.length == 1) (oneByte params f) := by
  unfold oneByte
  split
  · rfl
  · trivial

theorem noByte_within (params : List Byte) (c : Command) : ReadWithin (params.length == 0) (noByte params c) := by
  unfold noByte
  split
  · rfl
  · trivial

theorem readLoadTerminals_within (params : List Byte) : ReadWithin (1 ≤ (params.headD 0).toNat &&
    (params.headD 0).toNat ≤ 8 && params.length == 1 + 12 * (params.headD 0).toNat) (readLoadTerminals params) := by
  unfold readLoadTerminals
  split
  · next count rest =>
    split
    · next es hes =>
      split
      · next hn =>
        obtain ⟨low, high, entries⟩ := hn
        have length : (count :: rest).length = 1 + 12 * count.toNat := by
          rw [List.length_cons, readEntries_length hes, entries, Nat.add_comm]
        simp only [ReadWithin, List.headD_cons, low, high, length, decide_true, Bool.and_self, beq_self_eq_true]
      · trivial
    · trivial
  · trivial

theorem readLoadLevelTable_within (params : List Byte) : ReadWithin (params.length == 15) (readLoadLevelTable params) := by
  unfold readLoadLevelTable
  split
  · next hdrop =>
    have left := congrArg List.length hdrop
    simp only [List.length_drop, List.length_singleton] at left
    exact beq_iff_eq.2 (by omega)
  · trivial

theorem readLoadFilters_within (params : List Byte) : ReadWithin (params.length == 39) (readLoadFilters params) := by
  unfold readLoadFilters
  split
  · trivial
  · next ha =>
    split
    · trivial
    · next hb =>
      split
      · next hr => exact beq_iff_eq.2 (by rw [readFilter_length ha, readFilter_length hb, readFilter_length hr]; rfl)
      · trivial

/-- A code with a length in 12.4 is read as its command only where the parameters have that length. -/
theorem readCommand_within {code : Byte} {params : List Byte} {fits : Bool} (h : paramsFit code params = some fits) :
    ReadWithin fits (readCommand code params) := by
  unfold paramsFit at h
  split at h
  case h_21 => cases h
  all_goals cases h
  all_goals
    rename_i hc
    simp only [readCommand, hc]
  case h_1 | h_2 | h_3 | h_4 | h_5 | h_6 | h_7 | h_8 | h_9 => exact oneByte_within _ _
  case h_10 => exact readLoadTerminals_within params
  case h_11 =>
    split
    · next hp =>
      split
      · next hn => exact beq_iff_eq.2 (by rw [readProfiles_length hp, hn])
      · trivial
    · trivial
  case h_12 | h_15 =>
    split
    · next hv =>
      split
      · next hn => exact beq_iff_eq.2 (by rw [readHalves_length hv, hn])
      · trivial
    · trivial
  case h_13 => exact readLoadLevelTable_within params
  case h_14 => exact readLoadFilters_within params
  case h_16 | h_17 | h_18 | h_19 => exact noByte_within _ _
  case h_20 =>
    split
    · next hn => exact beq_iff_eq.2 hn
    · trivial

theorem readCommand_of_misfit {code : Byte} {params : List Byte} (h : paramsFit code params = some false) :
    readCommand code params = .badLength := by
  have within := readCommand_within h
  cases read : readCommand code params with
  | unknown => rw [read] at within; cases within
  | badLength => rfl
  | command c => rw [read] at within; cases within

/-- The codes with no length in 12.4 are those of no command. -/
theorem readCommand_of_unknown {code : Byte} {params : List Byte} (h : paramsFit code params = none) :
    readCommand code params = .unknown := by
  unfold paramsFit at h
  split at h
  case h_21 =>
    unfold readCommand
    split
    case h_21 => rfl
    all_goals contradiction
  all_goals cases h

end Sys2Proof.Machine
end

section
/-! Management cells (R163, R166, R167): the checks of a cell in their order, and the row that a cell's bytes are. -/

namespace Sys2Proof.Machine

open Sys2Proof

/-! ## The checks of a cell -/

section
variable {s : State} {code : Byte} (tag : Byte) {params : List Byte}

theorem State.takeCell_of_busy (h : s.busyFor code = true) :
    s.takeCell (code :: tag :: params) = s.reply tag code { status := .busy } := if_pos h

theorem State.takeCell_of_unknown (h : s.busyFor code = false) (read : readCommand code params = .unknown) :
    s.takeCell (code :: tag :: params) = s.reply tag code { status := .unknownCommand } := by
  simp only [State.takeCell, h, read, Bool.false_eq_true, if_false]

theorem State.takeCell_of_badLength (h : s.busyFor code = false) (read : readCommand code params = .badLength) :
    s.takeCell (code :: tag :: params) = s.reply tag code { status := .badLength } := by
  simp only [State.takeCell, h, read, Bool.false_eq_true, if_false]

end

/-- A cell with no room for code and tag is discarded, and its place with it (R163 check 1). -/
theorem State.takeCell_of_short {payload : List Byte} (h : payload.length < 2) (s : State) :
    s.takeCell payload = s.releasePlace := by
  match payload, h with
  | [], _ => rfl
  | [_], _ => rfl

theorem State.busyFor_of_inFlight {s : State} (h : s.mu.inFlight.isSome) {code : Byte} (hc : code ≠ 0x14) :
    s.busyFor code = true :=
  Bool.and_eq_true_iff.2 ⟨h, bne_iff_ne.2 hc⟩

theorem State.busyFor_of_not {s : State} {code : Byte} (h : s.mu.inFlight = none ∨ code = 0x14) : s.busyFor code = false := by
  obtain idle | rfl := h
  · simp [State.busyFor, idle]
  · simp [State.busyFor]

/-- A second SECTOR_RESET is answered BUSY by its own rule (R167). -/
theorem State.takeCommand_second_reset {s : State} {tag' : Byte} {k : Nat} (h : s.mu.inFlight = some (.sectorReset tag' k))
    (tag : Byte) (through : Nat) :
    s.takeCommand tag (.sectorReset through) = s.reply tag 0x14 { status := .busy } := by
  have performed : s.perform tag (.sectorReset through) = (s, some { status := .busy }) := by
    simp only [State.perform, State.sectorResetCommand, h]
  have heard : s.busyFor (Command.sectorReset through).code = false := State.busyFor_of_not (.inr rfl)
  rw [State.takeCommand, heard]
  exact State.carryOut_of_reply performed

theorem exec_managementCell {s : State} (hs : s.cellReady) (payload : List Byte) :
    exec (.managementCell payload) s = .next ((s.cellRemoved 0).takeCell payload) := by
  rw [exec_of_dsItem? rfl, State.receiveDs_cell hs]

/-- A cell that is answered at a check (R164). -/
theorem exec_managementCell_answered {s : State} (hs : s.cellReady) {payload : List Byte} {tag code : Byte} {r : Reply}
    (h : (s.cellRemoved 0).takeCell payload = (s.cellRemoved 0).reply tag code r) :
    exec (.managementCell payload) s = .next (s.answered tag code r) := by
  rw [exec_managementCell hs, h, State.reply_cellRemoved]

/-- Settles O9: check by check, then a second SECTOR_RESET and every other command beside one in flight. -/
theorem cellChecksInOrder : Obligations.CellChecksInOrder := by
  refine ⟨fun s payload hs => ⟨fun short => ?_, ?_⟩, fun row tag c s hrow hs hf hc => ?_⟩
  · rw [exec_managementCell hs, State.takeCell_of_short short]
    rfl
  · rintro code tag params rfl
    refine ⟨fun hf hc => ?_, fun hf misfit => ?_, fun hf misfit => ?_⟩
    · exact exec_managementCell_answered hs (State.takeCell_of_busy tag (State.busyFor_of_inFlight hf hc))
    · exact exec_managementCell_answered hs
        (State.takeCell_of_unknown tag (State.busyFor_of_not hf) (readCommand_of_unknown misfit))
    · exact exec_managementCell_answered hs
        (State.takeCell_of_badLength tag (State.busyFor_of_not hf) (readCommand_of_misfit misfit))
  · rw [exec_of_dsItem? hrow, State.receiveDs_command hs]
    refine congrArg Host.Outcome.next (Eq.trans ?_ (s.reply_cellRemoved tag c.code _))
    by_cases reset : c.code = 0x14
    · obtain ⟨through, rfl⟩ := Command.eq_sectorReset_of_code reset
      obtain ⟨tag', k, running⟩ := hc.resolve_left (not_not.2 reset)
      exact State.takeCommand_second_reset (s := s.cellRemoved 0) running tag through
    · exact if_pos (State.busyFor_of_inFlight (s := s.cellRemoved 0) hf reset)

/-! ## The row of a cell's bytes (log 10) -/

/-- A cell that is read as a command of fitting length meets the checks of that command's row. -/
theorem State.takeCell_of_read {c : Command} (hl : c.lengthOk = true) (read : readCommand c.code c.params = .command c)
    (s : State) (tag : Byte) : s.takeCell (c.code :: tag :: c.params) = s.takeCommand tag c := by
  simp only [State.takeCell, State.takeCommand, read, hl, Bool.true_eq_false, if_false]

/-- Settles O10: a command is read back from its bytes (`commandsReadBack`). -/
theorem cellCarriesItsCommand : Obligations.CellCarriesItsCommand := by
  intro row tag c s hrow hl hreset hs
  refine ⟨_, exec_managementCell hs _, ?_⟩
  rw [exec_of_dsItem? hrow, State.receiveDs_command hs, State.takeCell_of_read hl (commandsReadBack c hl hreset)]

end Sys2Proof.Machine
end

section
/-! The Notice Queue and its mask (R176 to R178), the loading of the sector parameters (R171), and READ_SECTOR (R174, R175). -/

namespace Sys2Proof.Machine

open Sys2Proof

/-! ## Notices (R176, R177) -/

section
variable {s : State} {kind : NoticeKind} (id : Option Nat) (values : List Int)

theorem State.notify_of_masked (h : s.noticeEnabled kind = false) : s.notify kind id values = s := if_pos h

variable (enabled : s.noticeEnabled kind = true)
include enabled

theorem State.notify_of_full (full : Config.noticePlaces ≤ s.mu.notices.length) : s.notify kind id values = { s with
    mu := { s.mu with gapPending := true }
    si := { s.si with sticky := { s.si.sticky with noticesDropped := true } } } := by
  rw [State.notify, if_neg (by simp [enabled]), if_pos full]

theorem State.notify_of_room (room : s.mu.notices.length < Config.noticePlaces) : s.notify kind id values = { s with
    mu := { s.mu with
      notices := s.mu.notices ++
        [{ kind := kind, frame := s.si.frameNumber, id := id, values := values, gap := s.mu.gapPending }]
      gapPending := false } } := by
  rw [State.notify, if_neg (by simp [enabled]), if_neg (Nat.not_le.2 room)]

end

/-- The mask has a place for every notice code (12.6, R178). -/
theorem NoticeKind.code_pred_lt (kind : NoticeKind) : kind.code - 1 < 18 := by cases kind <;> decide

theorem State.noticeEnabled_of_mask {s : State} {kind : NoticeKind} {b : Bool} (h : s.mu.mask[kind.code - 1]? = some b) :
    s.noticeEnabled kind = b := by
  rw [State.noticeEnabled, List.getD_eq_getElem?_getD, h, Option.getD_some]

/-- Settles O53: the mask, then the room in the queue. -/
theorem noticeQueueRule : Obligations.NoticeQueueRule := by
  intro s kind id values length
  refine ⟨fun masked => ?_, fun enabled => ⟨fun full => ?_, fun room => ?_⟩, ?_⟩
  · exact State.notify_of_masked id values (State.noticeEnabled_of_mask masked)
  · exact State.notify_of_full id values (State.noticeEnabled_of_mask enabled) full
  · exact State.notify_of_room id values (State.noticeEnabled_of_mask enabled) room
  · rw [ne_eq, List.getElem?_eq_none_iff, length]
    exact Nat.not_le.2 kind.code_pred_lt

/-! ## SET_NOTICE_MASK (R178) -/

theorem enables_valid_iff (enables : List Byte) :
    enables.all (fun e => e.toNat ≤ 1) = true ↔ ∀ e ∈ enables, e = 0 ∨ e = 1 := by
  have flag (e : Byte) : e.toNat ≤ 1 ↔ e = 0 ∨ e = 1 := by bv_omega
  simp only [List.all_eq_true, decide_eq_true_eq, flag]

/-- Settles O29, by the values of the enables. -/
theorem noticeMaskReplaced : Obligations.NoticeMaskReplaced := by
  intro s tag enables hs hl
  have answers {u : State} {r : Reply} (h : (s.cellRemoved 0).setNoticeMaskCommand enables = (u.cellRemoved 0, r)) :
      exec (.setNoticeMask tag enables) s = .next (u.answered tag 0x13 r) :=
    exec_answered (c := .setNoticeMask enables) rfl (beq_iff_eq.2 hl) hs (congrArg atArrival h)
  refine ⟨fun valid => answers (if_pos ((enables_valid_iff enables).2 valid)), fun ⟨e, he, clear, set⟩ => ?_⟩
  exact answers (if_neg fun valid => ((enables_valid_iff enables).1 valid e he).elim clear set)

/-! ## LOAD_SECTOR_PARAMETERS (R171) -/

/-- The parameter at an index is within its range of 11.6. -/
def ParamInRange (v : List Nat) (i : Nat) : Prop :=
  (paramRanges.getD i (0, 0)).1 ≤ v.getD i 0 ∧ v.getD i 0 ≤ (paramRanges.getD i (0, 0)).2

section
variable {v : List Nat} (hv : v.length = 27)
include hv

/-- The first check of R171 at an index. -/
theorem out_of_range_iff {i : Nat} (hi : i < (v.zip paramRanges).length) :
    (!((v.zip paramRanges)[i].2.1 ≤ (v.zip paramRanges)[i].1 &&
      (v.zip paramRanges)[i].1 ≤ (v.zip paramRanges)[i].2.2)) = true ↔ ¬ ParamInRange v i := by
  have hi' : i < 27 := by rw [List.length_zip, hv] at hi; exact hi
  have hr : i < paramRanges.length := hi'
  have value : v.getD i 0 = v[i] := List.getD_eq_getElem v 0 (hv ▸ hi')
  have range : paramRanges.getD i (0, 0) = paramRanges[i] := List.getD_eq_getElem paramRanges (0, 0) hr
  simp only [ParamInRange, List.getElem_zip, value, range, Bool.not_eq_true', ← Bool.not_eq_true, Bool.and_eq_true,
    decide_eq_true_eq]

theorem failingField_of_first {i : Nat} (hi : i < 27) (before : ∀ j, j < i → ParamInRange v j) (fails : ¬ ParamInRange v i) :
    failingField v = some (i + 1) := by
  have first : (v.zip paramRanges).findIdx? (fun x => !(x.2.1 ≤ x.1 && x.1 ≤ x.2.2)) = some i := by
    have length : (v.zip paramRanges).length = 27 := by rw [List.length_zip, hv]; rfl
    refine List.findIdx?_eq_some_iff_getElem.2 ⟨length ▸ hi, (out_of_range_iff hv _).2 fails, fun j hj => ?_⟩
    exact fun h => (out_of_range_iff hv _).1 h (before j hj)
  simp only [failingField, first]

theorem failingField_of_ranges (within : ∀ i, i < 27 → ParamInRange v i) : failingField v =
    if (paramsOf v).pollMax < (paramsOf v).pollBase then some 10
    else if Config.frameSlots < (paramsOf v).regionStart + regionSize (paramsOf v) then some 14
    else none := by
  have passes : (v.zip paramRanges).findIdx? (fun x => !(x.2.1 ≤ x.1 && x.1 ≤ x.2.2)) = none := by
    refine List.findIdx?_eq_none_iff.2 fun x hx => ?_
    obtain ⟨i, hi, rfl⟩ := List.getElem_of_mem hx
    have hi' : i < 27 := by rw [List.length_zip, hv] at hi; exact hi
    exact Bool.eq_false_iff.2 fun h => (out_of_range_iff hv hi).1 h (within i hi')
  simp only [failingField, passes]

end

section
variable {s : State} (hm : s.si.mode = .config) {values : List Half}
include hm

theorem State.loadSectorParameters_of_failing {field : Nat} (h : failingField (values.map BitVec.toNat) = some field) :
    s.loadSectorParametersCommand values = (s, { status := .badValue, failing := field }) := by
  rw [State.loadSectorParametersCommand, if_neg (not_not.2 hm), h]

theorem State.loadSectorParameters_of_passed (h : failingField (values.map BitVec.toNat) = none) :
    s.loadSectorParametersCommand values = ({ s with params := paramsOf (values.map BitVec.toNat) }, Reply.ok) := by
  rw [State.loadSectorParametersCommand, if_neg (not_not.2 hm), h]

end

/-- Settles O25: the mode, the ranges, then the checks of fields 10 and 14. -/
theorem sectorParametersLoad : Obligations.SectorParametersLoad := by
  intro s tag v hs hl x ranges inRange refused
  have answers {u : State} {r : Reply} (h : (s.cellRemoved 0).loadSectorParametersCommand v = (u.cellRemoved 0, r)) :
      exec (.loadSectorParameters tag v) s = .next (u.answered tag 0x0D r) :=
    exec_answered (c := .loadSectorParameters v) rfl (beq_iff_eq.2 hl) hs (congrArg atArrival h)
  refine ⟨fun hm => answers (if_pos hm), fun hm => ?_⟩
  have inConfig : (s.cellRemoved 0).si.mode = .config := hm
  have hx : x.length = 27 := (List.length_map _).trans hl
  have refuses {field : Nat} (h : failingField x = some field) :
      exec (.loadSectorParameters tag v) s = .next (refused field) :=
    answers (State.loadSectorParameters_of_failing inConfig h)
  refine ⟨fun i hi before fails => refuses (failingField_of_first hx hi before fails), fun within => ?_⟩
  have checks := failingField_of_ranges hx within
  refine ⟨fun short => ?_, fun long wide => ?_, fun long fits => ⟨paramsOf x, values_paramsOf hx, ?_⟩⟩
  · exact refuses (checks.trans (if_pos short))
  · exact refuses (checks.trans ((if_neg (Nat.not_lt.2 long)).trans (if_pos wide)))
  · exact answers (State.loadSectorParameters_of_passed inConfig
      (checks.trans ((if_neg (Nat.not_lt.2 long)).trans (if_neg (Nat.not_lt.2 fits)))))

/-! ## READ_SECTOR (R174, R175) -/

/-- Each record is in one of the nine states. -/
theorem sum_states_eq_one (st : TState) : (stateOrder.map fun st' => if st == st' then 1 else 0).sum = 1 := by
  cases st <;> rfl

theorem State.countRecords_eq_countP (s : State) (p : Record → Bool) :
    s.countRecords p = s.tt.records.countP fun e => p e.2 := List.countP_eq_length_filter.symm

theorem sum_counts (l : List (Nat × Record)) :
    (stateOrder.map fun st => l.countP fun e => e.2.state == st).sum = l.length := by
  induction l with
  | nil => rfl
  | cons e l ih =>
    simp only [List.countP_cons, List.sum_map_add, ih, sum_states_eq_one, List.length_cons]

theorem State.records_length_le {s : State} (hs : s.recordsSound) : s.tt.records.length ≤ Config.maxId := by
  obtain ⟨ascending, range⟩ := hs
  have among : s.ids ⊆ List.range' 1 Config.maxId := fun id hid => by
    obtain ⟨low, high⟩ := range id hid
    exact List.mem_range'_1.2 ⟨low, by omega⟩
  have bound := (List.subperm_of_subset (ascending.imp Nat.ne_of_lt) among).length_le
  rwa [List.length_range', State.ids, List.length_map] at bound

/-- The ten counts add up to the 255 IDs (R174). -/
theorem State.stateCounts_sum {s : State} (hs : s.recordsSound) : s.stateCounts.sum = 255 := by
  have states : (stateOrder.map fun st => s.countRecords fun r => r.state == st).sum = s.tt.records.length := by
    simp only [State.countRecords_eq_countP, sum_counts]
  have bound := State.records_length_le hs
  rw [State.stateCounts, List.sum_cons, states]
  simp only [Config.maxId] at bound ⊢
  omega

theorem State.sectorResult_length (s : State) : s.sectorResult.length = 41 := rfl

theorem bitsByte_four (a b c d : Bool) : bitsByte [a, b, c, d] =
    byteOf ((if a then 1 else 0) + (if b then 2 else 0) + (if c then 4 else 0) + (if d then 8 else 0)) := by
  simp [bitsByte, List.zipIdx_cons, add_assoc]

theorem flagByte_eq (b : Bool) : flagByte b = byteOf (if b then 1 else 0) := by cases b <;> rfl

theorem TState.outage_eq (st : TState) : st.outage = (st == .lost || st == .polling || st == .ranging) := by cases st <;> rfl

/-- An option that is neither 0 nor 1. -/
theorem State.readSectorCommand_badValue (s : State) {acknowledge : Byte} (h : 2 ≤ acknowledge.toNat) :
    s.readSectorCommand acknowledge = (s, { status := .badValue }) := by
  obtain ⟨n, hn⟩ : ∃ n, acknowledge.toNat = n + 2 := ⟨acknowledge.toNat - 2, by omega⟩
  simp only [State.readSectorCommand, hn]

/-- Settles O28: the bytes are `State.sectorResult`, then the option. -/
theorem readSectorAcknowledges : Obligations.ReadSectorAcknowledges := by
  intro s tag acknowledge hs count perState bit sectorBytes
  have bytes : sectorBytes = s.sectorResult := by
    simp only [State.sectorResult, State.outageCount, TState.outage_eq, flagByte_eq, Sticky.bits, bitsByte_four]
    cases storm : s.ac.storm
    all_goals
      simp only [sectorBytes, storm]
      rfl
  have answers {u : State} {r : Reply} (h : (s.cellRemoved 0).readSectorCommand acknowledge = (u.cellRemoved 0, r)) :
      exec (.readSector tag acknowledge) s = .next (u.answered tag 0x12 r) :=
    exec_answered (c := .readSector acknowledge) rfl rfl hs (congrArg atArrival h)
  rw [bytes]
  refine ⟨?_, ?_, fun high => answers (State.readSectorCommand_badValue _ high), s.sectorResult_length,
    State.stateCounts_sum⟩
  · rintro rfl
    exact answers rfl
  · rintro rfl
    exact answers (u := s.clearSticky) rfl

end Sys2Proof.Machine
end
